-- ==== Sys2Proof/Word.lean ====
section
/-! DEFINITION. The widths of the machine's data (00 R8): bytes on both buses, 16-bit CPU addresses. -/

namespace Sys2Proof

/-- CPU data, and every byte on either bus (00 R8, 20 R88, 50 R280). -/
abbrev Byte := BitVec 8

/-- A 16-bit CPU address, and the program counter (00 R8, 10 R26). -/
abbrev Addr := BitVec 16

end Sys2Proof
end

