-- ==== Sys2Proof/Machine/Bits.lean ====
section
/-! DEFINITION. Bit fields, byte order and sign extension (00 R10). -/

namespace Sys2Proof

/-- `lo(w) = w[7:0]` (00 R10). -/
def lo (w : Addr) : Byte := w.extractLsb' 0 8

/-- `hi(w) = w[15:8]` (00 R10). -/
def hi (w : Addr) : Byte := w.extractLsb' 8 8

/-- `w16(h, l) = (h << 8) | l` (00 R10). -/
def w16 (h l : Byte) : Addr := h ++ l

/-- `sext_16(v)` of a byte (00 R10). -/
def sext16 (v : Byte) : Addr := v.signExtend 16

/-- `zext_16(v)` of a byte (00 R10). -/
def zext16 (v : Byte) : Addr := v.zeroExtend 16

/-- Bit 7 of a byte, its sign. -/
def bit7 (v : Byte) : Bool := v.getLsbD 7

/-- The byte of a Bool at bit 0 (00 R10, `v[0]` as a number). -/
def bitByte (b : Bool) : Byte := if b then 1 else 0

/-- `reverse8`: the bits of a byte in the other order (51 R323). -/
def reverse8 (v : Byte) : Byte := v.reverse

end Sys2Proof
end

