-- ==== Sys2Proof/Syntax.lean ====
section
/-! DEFINITION. The instructions as syntax: one constructor of Instr per row of spec/opcode_table.json (30 R143,
R146), with its operand; the addressing modes (30 R141), operand shapes and mnemonics they are made of. -/

namespace Sys2Proof

/-- The addressing-mode tags of 30 R141; `imp1` is the 1-byte form of the undefined opcodes. -/
inductive Mode where
  | imp | acc | imm | zp | zpX | zpY | abs | absX | absY | ind | indX | indY | rel | imp1
  deriving DecidableEq, Repr

/-- An operand in its addressing mode: an 8-bit value, zero-page address or offset, or a 16-bit address
already put together from its two bytes (30 R141, 20 R87). -/
inductive Operand where
  | imp
  | acc
  | imm (v : Byte)
  | zp (a : Byte)
  | zpX (a : Byte)
  | zpY (a : Byte)
  | abs (w : Addr)
  | absX (w : Addr)
  | absY (w : Addr)
  | ind (w : Addr)
  | indX (a : Byte)
  | indY (a : Byte)
  | rel (o : Byte)
  | imp1
  deriving DecidableEq, Repr

/-- The penalty classes of 30 R146. -/
inductive Penalty where
  | none
  | page
  | branch
  deriving DecidableEq, Repr

/-- The mnemonics of the opcode table; `nopU` is *NOP and `sbcU` is *SBC (30 R144), `undef` is UNDEF (30 R150). -/
inductive Mnemonic where
  | brk | ora | undef | slo | nopU | asl | php | anc | bpl | clc | jsr | and | rla | bit | rol | plp | bmi
  | sec | rti | eor | sre | lsr | pha | alr | jmp | bvc | cli | rts | adc | rra | ror | pla | bvs | sei | sta
  | sax | sty | stx | dey | txa | bcc | tya | txs | ldy | lda | ldx | lax | tay | tax | bcs | clv | tsx | cpy
  | cmp | dcp | dec | iny | dex | bne | cld | cpx | sbc | isc | inc | inx | nop | sbcU | beq | sed
  deriving DecidableEq, Repr

/-- A row of the per-opcode table of 30 R146. -/
structure OpInfo where
  mnemonic : Mnemonic
  mode     : Mode
  bytes    : Nat
  base     : Nat
  penalty  : Penalty
  deriving DecidableEq, Repr

/-- The 22 undefined opcodes (30 R145), each named after its byte. -/
inductive UndefOpcode where
  | x02 | x12 | x22 | x32 | x42 | x52 | x62 | x72 | x92 | xB2 | xD2
  | xF2 | x6B | x8B | x93 | x9B | x9C | x9E | x9F | xAB | xBB | xCB
  deriving DecidableEq, Repr

/-- The instructions, one constructor per row of the table, in the order of their opcodes (30 R143). A two-byte address operand is the assembled
16-bit address. Constructors that share mnemonic and mode carry their opcode in their name;
the 22 UNDEF rows are the one constructor `undef` with the opcode as its argument (log 21). -/
inductive Instr where
  /-- BRK, opcode $00 (R228) -/
  | brk
  /-- ORA (nn,X), opcode $01 (R218) -/
  | oraIndX (a : Byte)
  /-- UNDEF, the undefined opcodes (R273) -/
  | undef (op : UndefOpcode)
  /-- SLO (nn,X), opcode $03 (R261) -/
  | sloIndX (a : Byte)
  /-- *NOP nn, opcode $04 (R272) -/
  | nopZp04 (a : Byte)
  /-- ORA nn, opcode $05 (R218) -/
  | oraZp (a : Byte)
  /-- ASL nn, opcode $06 (R219) -/
  | aslZp (a : Byte)
  /-- SLO nn, opcode $07 (R261) -/
  | sloZp (a : Byte)
  /-- PHP, opcode $08 (R241) -/
  | php
  /-- ORA #nn, opcode $09 (R218) -/
  | oraImm (v : Byte)
  /-- ASL A, opcode $0A (R219) -/
  | aslAcc
  /-- ANC #nn, opcode $0B (R269) -/
  | ancImm0B (v : Byte)
  /-- *NOP nnnn, opcode $0C (R272) -/
  | nopAbs0C (w : Addr)
  /-- ORA nnnn, opcode $0D (R218) -/
  | oraAbs (w : Addr)
  /-- ASL nnnn, opcode $0E (R219) -/
  | aslAbs (w : Addr)
  /-- SLO nnnn, opcode $0F (R261) -/
  | sloAbs (w : Addr)
  /-- BPL rel, opcode $10 (R232) -/
  | bpl (o : Byte)
  /-- ORA (nn),Y, opcode $11 (R218) -/
  | oraIndY (a : Byte)
  /-- SLO (nn),Y, opcode $13 (R261) -/
  | sloIndY (a : Byte)
  /-- *NOP nn,X, opcode $14 (R272) -/
  | nopZpX14 (a : Byte)
  /-- ORA nn,X, opcode $15 (R218) -/
  | oraZpX (a : Byte)
  /-- ASL nn,X, opcode $16 (R219) -/
  | aslZpX (a : Byte)
  /-- SLO nn,X, opcode $17 (R261) -/
  | sloZpX (a : Byte)
  /-- CLC, opcode $18 (R245) -/
  | clc
  /-- ORA nnnn,Y, opcode $19 (R218) -/
  | oraAbsY (w : Addr)
  /-- *NOP, opcode $1A (R272) -/
  | nopImp1A
  /-- SLO nnnn,Y, opcode $1B (R261) -/
  | sloAbsY (w : Addr)
  /-- *NOP nnnn,X, opcode $1C (R272) -/
  | nopAbsX1C (w : Addr)
  /-- ORA nnnn,X, opcode $1D (R218) -/
  | oraAbsX (w : Addr)
  /-- ASL nnnn,X, opcode $1E (R219) -/
  | aslAbsX (w : Addr)
  /-- SLO nnnn,X, opcode $1F (R261) -/
  | sloAbsX (w : Addr)
  /-- JSR nnnn, opcode $20 (R227) -/
  | jsrAbs (w : Addr)
  /-- AND (nn,X), opcode $21 (R216) -/
  | andIndX (a : Byte)
  /-- RLA (nn,X), opcode $23 (R262) -/
  | rlaIndX (a : Byte)
  /-- BIT nn, opcode $24 (R223) -/
  | bitZp (a : Byte)
  /-- AND nn, opcode $25 (R216) -/
  | andZp (a : Byte)
  /-- ROL nn, opcode $26 (R221) -/
  | rolZp (a : Byte)
  /-- RLA nn, opcode $27 (R262) -/
  | rlaZp (a : Byte)
  /-- PLP, opcode $28 (R243) -/
  | plp
  /-- AND #nn, opcode $29 (R216) -/
  | andImm (v : Byte)
  /-- ROL A, opcode $2A (R221) -/
  | rolAcc
  /-- ANC #nn, opcode $2B (R269) -/
  | ancImm2B (v : Byte)
  /-- BIT nnnn, opcode $2C (R223) -/
  | bitAbs (w : Addr)
  /-- AND nnnn, opcode $2D (R216) -/
  | andAbs (w : Addr)
  /-- ROL nnnn, opcode $2E (R221) -/
  | rolAbs (w : Addr)
  /-- RLA nnnn, opcode $2F (R262) -/
  | rlaAbs (w : Addr)
  /-- BMI rel, opcode $30 (R233) -/
  | bmi (o : Byte)
  /-- AND (nn),Y, opcode $31 (R216) -/
  | andIndY (a : Byte)
  /-- RLA (nn),Y, opcode $33 (R262) -/
  | rlaIndY (a : Byte)
  /-- *NOP nn,X, opcode $34 (R272) -/
  | nopZpX34 (a : Byte)
  /-- AND nn,X, opcode $35 (R216) -/
  | andZpX (a : Byte)
  /-- ROL nn,X, opcode $36 (R221) -/
  | rolZpX (a : Byte)
  /-- RLA nn,X, opcode $37 (R262) -/
  | rlaZpX (a : Byte)
  /-- SEC, opcode $38 (R246) -/
  | sec
  /-- AND nnnn,Y, opcode $39 (R216) -/
  | andAbsY (w : Addr)
  /-- *NOP, opcode $3A (R272) -/
  | nopImp3A
  /-- RLA nnnn,Y, opcode $3B (R262) -/
  | rlaAbsY (w : Addr)
  /-- *NOP nnnn,X, opcode $3C (R272) -/
  | nopAbsX3C (w : Addr)
  /-- AND nnnn,X, opcode $3D (R216) -/
  | andAbsX (w : Addr)
  /-- ROL nnnn,X, opcode $3E (R221) -/
  | rolAbsX (w : Addr)
  /-- RLA nnnn,X, opcode $3F (R262) -/
  | rlaAbsX (w : Addr)
  /-- RTI, opcode $40 (R229) -/
  | rti
  /-- EOR (nn,X), opcode $41 (R217) -/
  | eorIndX (a : Byte)
  /-- SRE (nn,X), opcode $43 (R263) -/
  | sreIndX (a : Byte)
  /-- *NOP nn, opcode $44 (R272) -/
  | nopZp44 (a : Byte)
  /-- EOR nn, opcode $45 (R217) -/
  | eorZp (a : Byte)
  /-- LSR nn, opcode $46 (R220) -/
  | lsrZp (a : Byte)
  /-- SRE nn, opcode $47 (R263) -/
  | sreZp (a : Byte)
  /-- PHA, opcode $48 (R242) -/
  | pha
  /-- EOR #nn, opcode $49 (R217) -/
  | eorImm (v : Byte)
  /-- LSR A, opcode $4A (R220) -/
  | lsrAcc
  /-- ALR #nn, opcode $4B (R270) -/
  | alrImm (v : Byte)
  /-- JMP nnnn, opcode $4C (R226) -/
  | jmpAbs (w : Addr)
  /-- EOR nnnn, opcode $4D (R217) -/
  | eorAbs (w : Addr)
  /-- LSR nnnn, opcode $4E (R220) -/
  | lsrAbs (w : Addr)
  /-- SRE nnnn, opcode $4F (R263) -/
  | sreAbs (w : Addr)
  /-- BVC rel, opcode $50 (R234) -/
  | bvc (o : Byte)
  /-- EOR (nn),Y, opcode $51 (R217) -/
  | eorIndY (a : Byte)
  /-- SRE (nn),Y, opcode $53 (R263) -/
  | sreIndY (a : Byte)
  /-- *NOP nn,X, opcode $54 (R272) -/
  | nopZpX54 (a : Byte)
  /-- EOR nn,X, opcode $55 (R217) -/
  | eorZpX (a : Byte)
  /-- LSR nn,X, opcode $56 (R220) -/
  | lsrZpX (a : Byte)
  /-- SRE nn,X, opcode $57 (R263) -/
  | sreZpX (a : Byte)
  /-- CLI, opcode $58 (R247) -/
  | cli
  /-- EOR nnnn,Y, opcode $59 (R217) -/
  | eorAbsY (w : Addr)
  /-- *NOP, opcode $5A (R272) -/
  | nopImp5A
  /-- SRE nnnn,Y, opcode $5B (R263) -/
  | sreAbsY (w : Addr)
  /-- *NOP nnnn,X, opcode $5C (R272) -/
  | nopAbsX5C (w : Addr)
  /-- EOR nnnn,X, opcode $5D (R217) -/
  | eorAbsX (w : Addr)
  /-- LSR nnnn,X, opcode $5E (R220) -/
  | lsrAbsX (w : Addr)
  /-- SRE nnnn,X, opcode $5F (R263) -/
  | sreAbsX (w : Addr)
  /-- RTS, opcode $60 (R230) -/
  | rts
  /-- ADC (nn,X), opcode $61 (R201) -/
  | adcIndX (a : Byte)
  /-- RRA (nn,X), opcode $63 (R264) -/
  | rraIndX (a : Byte)
  /-- *NOP nn, opcode $64 (R272) -/
  | nopZp64 (a : Byte)
  /-- ADC nn, opcode $65 (R201) -/
  | adcZp (a : Byte)
  /-- ROR nn, opcode $66 (R222) -/
  | rorZp (a : Byte)
  /-- RRA nn, opcode $67 (R264) -/
  | rraZp (a : Byte)
  /-- PLA, opcode $68 (R244) -/
  | pla
  /-- ADC #nn, opcode $69 (R201) -/
  | adcImm (v : Byte)
  /-- ROR A, opcode $6A (R222) -/
  | rorAcc
  /-- JMP (nnnn), opcode $6C (R226) -/
  | jmpInd (w : Addr)
  /-- ADC nnnn, opcode $6D (R201) -/
  | adcAbs (w : Addr)
  /-- ROR nnnn, opcode $6E (R222) -/
  | rorAbs (w : Addr)
  /-- RRA nnnn, opcode $6F (R264) -/
  | rraAbs (w : Addr)
  /-- BVS rel, opcode $70 (R235) -/
  | bvs (o : Byte)
  /-- ADC (nn),Y, opcode $71 (R201) -/
  | adcIndY (a : Byte)
  /-- RRA (nn),Y, opcode $73 (R264) -/
  | rraIndY (a : Byte)
  /-- *NOP nn,X, opcode $74 (R272) -/
  | nopZpX74 (a : Byte)
  /-- ADC nn,X, opcode $75 (R201) -/
  | adcZpX (a : Byte)
  /-- ROR nn,X, opcode $76 (R222) -/
  | rorZpX (a : Byte)
  /-- RRA nn,X, opcode $77 (R264) -/
  | rraZpX (a : Byte)
  /-- SEI, opcode $78 (R248) -/
  | sei
  /-- ADC nnnn,Y, opcode $79 (R201) -/
  | adcAbsY (w : Addr)
  /-- *NOP, opcode $7A (R272) -/
  | nopImp7A
  /-- RRA nnnn,Y, opcode $7B (R264) -/
  | rraAbsY (w : Addr)
  /-- *NOP nnnn,X, opcode $7C (R272) -/
  | nopAbsX7C (w : Addr)
  /-- ADC nnnn,X, opcode $7D (R201) -/
  | adcAbsX (w : Addr)
  /-- ROR nnnn,X, opcode $7E (R222) -/
  | rorAbsX (w : Addr)
  /-- RRA nnnn,X, opcode $7F (R264) -/
  | rraAbsX (w : Addr)
  /-- *NOP #nn, opcode $80 (R272) -/
  | nopImm80 (v : Byte)
  /-- STA (nn,X), opcode $81 (R194) -/
  | staIndX (a : Byte)
  /-- *NOP #nn, opcode $82 (R272) -/
  | nopImm82 (v : Byte)
  /-- SAX (nn,X), opcode $83 (R267) -/
  | saxIndX (a : Byte)
  /-- STY nn, opcode $84 (R196) -/
  | styZp (a : Byte)
  /-- STA nn, opcode $85 (R194) -/
  | staZp (a : Byte)
  /-- STX nn, opcode $86 (R195) -/
  | stxZp (a : Byte)
  /-- SAX nn, opcode $87 (R267) -/
  | saxZp (a : Byte)
  /-- DEY, opcode $88 (R211) -/
  | dey
  /-- *NOP #nn, opcode $89 (R272) -/
  | nopImm89 (v : Byte)
  /-- TXA, opcode $8A (R254) -/
  | txa
  /-- STY nnnn, opcode $8C (R196) -/
  | styAbs (w : Addr)
  /-- STA nnnn, opcode $8D (R194) -/
  | staAbs (w : Addr)
  /-- STX nnnn, opcode $8E (R195) -/
  | stxAbs (w : Addr)
  /-- SAX nnnn, opcode $8F (R267) -/
  | saxAbs (w : Addr)
  /-- BCC rel, opcode $90 (R236) -/
  | bcc (o : Byte)
  /-- STA (nn),Y, opcode $91 (R194) -/
  | staIndY (a : Byte)
  /-- STY nn,X, opcode $94 (R196) -/
  | styZpX (a : Byte)
  /-- STA nn,X, opcode $95 (R194) -/
  | staZpX (a : Byte)
  /-- STX nn,Y, opcode $96 (R195) -/
  | stxZpY (a : Byte)
  /-- SAX nn,Y, opcode $97 (R267) -/
  | saxZpY (a : Byte)
  /-- TYA, opcode $98 (R255) -/
  | tya
  /-- STA nnnn,Y, opcode $99 (R194) -/
  | staAbsY (w : Addr)
  /-- TXS, opcode $9A (R257) -/
  | txs
  /-- STA nnnn,X, opcode $9D (R194) -/
  | staAbsX (w : Addr)
  /-- LDY #nn, opcode $A0 (R193) -/
  | ldyImm (v : Byte)
  /-- LDA (nn,X), opcode $A1 (R191) -/
  | ldaIndX (a : Byte)
  /-- LDX #nn, opcode $A2 (R192) -/
  | ldxImm (v : Byte)
  /-- LAX (nn,X), opcode $A3 (R268) -/
  | laxIndX (a : Byte)
  /-- LDY nn, opcode $A4 (R193) -/
  | ldyZp (a : Byte)
  /-- LDA nn, opcode $A5 (R191) -/
  | ldaZp (a : Byte)
  /-- LDX nn, opcode $A6 (R192) -/
  | ldxZp (a : Byte)
  /-- LAX nn, opcode $A7 (R268) -/
  | laxZp (a : Byte)
  /-- TAY, opcode $A8 (R253) -/
  | tay
  /-- LDA #nn, opcode $A9 (R191) -/
  | ldaImm (v : Byte)
  /-- TAX, opcode $AA (R252) -/
  | tax
  /-- LDY nnnn, opcode $AC (R193) -/
  | ldyAbs (w : Addr)
  /-- LDA nnnn, opcode $AD (R191) -/
  | ldaAbs (w : Addr)
  /-- LDX nnnn, opcode $AE (R192) -/
  | ldxAbs (w : Addr)
  /-- LAX nnnn, opcode $AF (R268) -/
  | laxAbs (w : Addr)
  /-- BCS rel, opcode $B0 (R237) -/
  | bcs (o : Byte)
  /-- LDA (nn),Y, opcode $B1 (R191) -/
  | ldaIndY (a : Byte)
  /-- LAX (nn),Y, opcode $B3 (R268) -/
  | laxIndY (a : Byte)
  /-- LDY nn,X, opcode $B4 (R193) -/
  | ldyZpX (a : Byte)
  /-- LDA nn,X, opcode $B5 (R191) -/
  | ldaZpX (a : Byte)
  /-- LDX nn,Y, opcode $B6 (R192) -/
  | ldxZpY (a : Byte)
  /-- LAX nn,Y, opcode $B7 (R268) -/
  | laxZpY (a : Byte)
  /-- CLV, opcode $B8 (R251) -/
  | clv
  /-- LDA nnnn,Y, opcode $B9 (R191) -/
  | ldaAbsY (w : Addr)
  /-- TSX, opcode $BA (R256) -/
  | tsx
  /-- LDY nnnn,X, opcode $BC (R193) -/
  | ldyAbsX (w : Addr)
  /-- LDA nnnn,X, opcode $BD (R191) -/
  | ldaAbsX (w : Addr)
  /-- LDX nnnn,Y, opcode $BE (R192) -/
  | ldxAbsY (w : Addr)
  /-- LAX nnnn,Y, opcode $BF (R268) -/
  | laxAbsY (w : Addr)
  /-- CPY #nn, opcode $C0 (R205) -/
  | cpyImm (v : Byte)
  /-- CMP (nn,X), opcode $C1 (R203) -/
  | cmpIndX (a : Byte)
  /-- *NOP #nn, opcode $C2 (R272) -/
  | nopImmC2 (v : Byte)
  /-- DCP (nn,X), opcode $C3 (R265) -/
  | dcpIndX (a : Byte)
  /-- CPY nn, opcode $C4 (R205) -/
  | cpyZp (a : Byte)
  /-- CMP nn, opcode $C5 (R203) -/
  | cmpZp (a : Byte)
  /-- DEC nn, opcode $C6 (R207) -/
  | decZp (a : Byte)
  /-- DCP nn, opcode $C7 (R265) -/
  | dcpZp (a : Byte)
  /-- INY, opcode $C8 (R210) -/
  | iny
  /-- CMP #nn, opcode $C9 (R203) -/
  | cmpImm (v : Byte)
  /-- DEX, opcode $CA (R209) -/
  | dex
  /-- CPY nnnn, opcode $CC (R205) -/
  | cpyAbs (w : Addr)
  /-- CMP nnnn, opcode $CD (R203) -/
  | cmpAbs (w : Addr)
  /-- DEC nnnn, opcode $CE (R207) -/
  | decAbs (w : Addr)
  /-- DCP nnnn, opcode $CF (R265) -/
  | dcpAbs (w : Addr)
  /-- BNE rel, opcode $D0 (R238) -/
  | bne (o : Byte)
  /-- CMP (nn),Y, opcode $D1 (R203) -/
  | cmpIndY (a : Byte)
  /-- DCP (nn),Y, opcode $D3 (R265) -/
  | dcpIndY (a : Byte)
  /-- *NOP nn,X, opcode $D4 (R272) -/
  | nopZpXD4 (a : Byte)
  /-- CMP nn,X, opcode $D5 (R203) -/
  | cmpZpX (a : Byte)
  /-- DEC nn,X, opcode $D6 (R207) -/
  | decZpX (a : Byte)
  /-- DCP nn,X, opcode $D7 (R265) -/
  | dcpZpX (a : Byte)
  /-- CLD, opcode $D8 (R249) -/
  | cld
  /-- CMP nnnn,Y, opcode $D9 (R203) -/
  | cmpAbsY (w : Addr)
  /-- *NOP, opcode $DA (R272) -/
  | nopImpDA
  /-- DCP nnnn,Y, opcode $DB (R265) -/
  | dcpAbsY (w : Addr)
  /-- *NOP nnnn,X, opcode $DC (R272) -/
  | nopAbsXDC (w : Addr)
  /-- CMP nnnn,X, opcode $DD (R203) -/
  | cmpAbsX (w : Addr)
  /-- DEC nnnn,X, opcode $DE (R207) -/
  | decAbsX (w : Addr)
  /-- DCP nnnn,X, opcode $DF (R265) -/
  | dcpAbsX (w : Addr)
  /-- CPX #nn, opcode $E0 (R204) -/
  | cpxImm (v : Byte)
  /-- SBC (nn,X), opcode $E1 (R202) -/
  | sbcIndX (a : Byte)
  /-- *NOP #nn, opcode $E2 (R272) -/
  | nopImmE2 (v : Byte)
  /-- ISC (nn,X), opcode $E3 (R266) -/
  | iscIndX (a : Byte)
  /-- CPX nn, opcode $E4 (R204) -/
  | cpxZp (a : Byte)
  /-- SBC nn, opcode $E5 (R202) -/
  | sbcZp (a : Byte)
  /-- INC nn, opcode $E6 (R206) -/
  | incZp (a : Byte)
  /-- ISC nn, opcode $E7 (R266) -/
  | iscZp (a : Byte)
  /-- INX, opcode $E8 (R208) -/
  | inx
  /-- SBC #nn, opcode $E9 (R202) -/
  | sbcImm (v : Byte)
  /-- NOP, opcode $EA (R258) -/
  | nop
  /-- *SBC #nn, opcode $EB (R271) -/
  | sbcImmEB (v : Byte)
  /-- CPX nnnn, opcode $EC (R204) -/
  | cpxAbs (w : Addr)
  /-- SBC nnnn, opcode $ED (R202) -/
  | sbcAbs (w : Addr)
  /-- INC nnnn, opcode $EE (R206) -/
  | incAbs (w : Addr)
  /-- ISC nnnn, opcode $EF (R266) -/
  | iscAbs (w : Addr)
  /-- BEQ rel, opcode $F0 (R239) -/
  | beq (o : Byte)
  /-- SBC (nn),Y, opcode $F1 (R202) -/
  | sbcIndY (a : Byte)
  /-- ISC (nn),Y, opcode $F3 (R266) -/
  | iscIndY (a : Byte)
  /-- *NOP nn,X, opcode $F4 (R272) -/
  | nopZpXF4 (a : Byte)
  /-- SBC nn,X, opcode $F5 (R202) -/
  | sbcZpX (a : Byte)
  /-- INC nn,X, opcode $F6 (R206) -/
  | incZpX (a : Byte)
  /-- ISC nn,X, opcode $F7 (R266) -/
  | iscZpX (a : Byte)
  /-- SED, opcode $F8 (R250) -/
  | sed
  /-- SBC nnnn,Y, opcode $F9 (R202) -/
  | sbcAbsY (w : Addr)
  /-- *NOP, opcode $FA (R272) -/
  | nopImpFA
  /-- ISC nnnn,Y, opcode $FB (R266) -/
  | iscAbsY (w : Addr)
  /-- *NOP nnnn,X, opcode $FC (R272) -/
  | nopAbsXFC (w : Addr)
  /-- SBC nnnn,X, opcode $FD (R202) -/
  | sbcAbsX (w : Addr)
  /-- INC nnnn,X, opcode $FE (R206) -/
  | incAbsX (w : Addr)
  /-- ISC nnnn,X, opcode $FF (R266) -/
  | iscAbsX (w : Addr)
  deriving DecidableEq, Repr

end Sys2Proof
end

