-- ==== Sys2Proof/WellFormed.lean ====
section
/-! DEFINITION. Well-formedness. Every operand field of Instr has exactly the width its encoding admits (30 R141), so
no instruction as syntax is ill-formed; what can be ill-formed is a byte string offered as one instruction, and
a branch target that no 8-bit offset reaches (30 R149). -/

namespace Sys2Proof

/-- Operand bytes after the opcode, by mode (30 R141). -/
def Mode.operandBytes : Mode → Nat
  | .imp | .acc | .imp1 => 0
  | .imm | .zp | .zpX | .zpY | .indX | .indY | .rel => 1
  | .abs | .absX | .absY | .ind => 2

/-- An instruction as syntax is always well formed: the types of its fields are the widths of 30 R141. -/
def Instr.wellFormed (_ : Instr) : Bool := true

/-- A byte string has the length of one instruction of mode `m`: no byte is missing and none is left over
(30 R140, R141). -/
def wellFormedLength (m : Mode) (bytes : List Byte) : Bool := bytes.length == 1 + m.operandBytes

/-- The distance from a branch at `pc` to `target`, which the assembler encodes: target - (pc + 2) (30 R149). -/
def branchDistance (pc target : Addr) : BitVec 16 := target - (pc + 2)

/-- A branch at `pc` can name `target`: the distance lies in -128..127 (30 R149). -/
def wellFormedBranch (pc target : Addr) : Bool :=
  decide (-128 ≤ (branchDistance pc target).toInt) && decide ((branchDistance pc target).toInt ≤ 127)

end Sys2Proof
end

