-- ==== Sys2Proof/Decode.lean ====
section
/-! DEFINITION. The decoder and the encoder: the per-opcode table (30 R146), the opcode map (30 R143) as a decoder that
is total on any bytes, and an encoder written from the same map. -/

namespace Sys2Proof

-- The per-opcode table of 30 R146, sixteen rows a piece.

/-- Opcodes $00 to $0F (30 R146). -/
def opcodeInfo0 : List OpInfo := [
  ⟨.brk, .imp, 1, 7, .none⟩,
  ⟨.ora, .indX, 2, 6, .none⟩,
  ⟨.undef, .imp1, 1, 1, .none⟩,
  ⟨.slo, .indX, 2, 8, .none⟩,
  ⟨.nopU, .zp, 2, 3, .none⟩,
  ⟨.ora, .zp, 2, 3, .none⟩,
  ⟨.asl, .zp, 2, 5, .none⟩,
  ⟨.slo, .zp, 2, 5, .none⟩,
  ⟨.php, .imp, 1, 3, .none⟩,
  ⟨.ora, .imm, 2, 2, .none⟩,
  ⟨.asl, .acc, 1, 2, .none⟩,
  ⟨.anc, .imm, 2, 2, .none⟩,
  ⟨.nopU, .abs, 3, 4, .none⟩,
  ⟨.ora, .abs, 3, 4, .none⟩,
  ⟨.asl, .abs, 3, 6, .none⟩,
  ⟨.slo, .abs, 3, 6, .none⟩]

/-- Opcodes $10 to $1F (30 R146). -/
def opcodeInfo1 : List OpInfo := [
  ⟨.bpl, .rel, 2, 2, .branch⟩,
  ⟨.ora, .indY, 2, 5, .page⟩,
  ⟨.undef, .imp1, 1, 1, .none⟩,
  ⟨.slo, .indY, 2, 8, .none⟩,
  ⟨.nopU, .zpX, 2, 4, .none⟩,
  ⟨.ora, .zpX, 2, 4, .none⟩,
  ⟨.asl, .zpX, 2, 6, .none⟩,
  ⟨.slo, .zpX, 2, 6, .none⟩,
  ⟨.clc, .imp, 1, 2, .none⟩,
  ⟨.ora, .absY, 3, 4, .page⟩,
  ⟨.nopU, .imp, 1, 2, .none⟩,
  ⟨.slo, .absY, 3, 7, .none⟩,
  ⟨.nopU, .absX, 3, 4, .page⟩,
  ⟨.ora, .absX, 3, 4, .page⟩,
  ⟨.asl, .absX, 3, 7, .none⟩,
  ⟨.slo, .absX, 3, 7, .none⟩]

/-- Opcodes $20 to $2F (30 R146). -/
def opcodeInfo2 : List OpInfo := [
  ⟨.jsr, .abs, 3, 6, .none⟩,
  ⟨.and, .indX, 2, 6, .none⟩,
  ⟨.undef, .imp1, 1, 1, .none⟩,
  ⟨.rla, .indX, 2, 8, .none⟩,
  ⟨.bit, .zp, 2, 3, .none⟩,
  ⟨.and, .zp, 2, 3, .none⟩,
  ⟨.rol, .zp, 2, 5, .none⟩,
  ⟨.rla, .zp, 2, 5, .none⟩,
  ⟨.plp, .imp, 1, 4, .none⟩,
  ⟨.and, .imm, 2, 2, .none⟩,
  ⟨.rol, .acc, 1, 2, .none⟩,
  ⟨.anc, .imm, 2, 2, .none⟩,
  ⟨.bit, .abs, 3, 4, .none⟩,
  ⟨.and, .abs, 3, 4, .none⟩,
  ⟨.rol, .abs, 3, 6, .none⟩,
  ⟨.rla, .abs, 3, 6, .none⟩]

/-- Opcodes $30 to $3F (30 R146). -/
def opcodeInfo3 : List OpInfo := [
  ⟨.bmi, .rel, 2, 2, .branch⟩,
  ⟨.and, .indY, 2, 5, .page⟩,
  ⟨.undef, .imp1, 1, 1, .none⟩,
  ⟨.rla, .indY, 2, 8, .none⟩,
  ⟨.nopU, .zpX, 2, 4, .none⟩,
  ⟨.and, .zpX, 2, 4, .none⟩,
  ⟨.rol, .zpX, 2, 6, .none⟩,
  ⟨.rla, .zpX, 2, 6, .none⟩,
  ⟨.sec, .imp, 1, 2, .none⟩,
  ⟨.and, .absY, 3, 4, .page⟩,
  ⟨.nopU, .imp, 1, 2, .none⟩,
  ⟨.rla, .absY, 3, 7, .none⟩,
  ⟨.nopU, .absX, 3, 4, .page⟩,
  ⟨.and, .absX, 3, 4, .page⟩,
  ⟨.rol, .absX, 3, 7, .none⟩,
  ⟨.rla, .absX, 3, 7, .none⟩]

/-- Opcodes $40 to $4F (30 R146). -/
def opcodeInfo4 : List OpInfo := [
  ⟨.rti, .imp, 1, 6, .none⟩,
  ⟨.eor, .indX, 2, 6, .none⟩,
  ⟨.undef, .imp1, 1, 1, .none⟩,
  ⟨.sre, .indX, 2, 8, .none⟩,
  ⟨.nopU, .zp, 2, 3, .none⟩,
  ⟨.eor, .zp, 2, 3, .none⟩,
  ⟨.lsr, .zp, 2, 5, .none⟩,
  ⟨.sre, .zp, 2, 5, .none⟩,
  ⟨.pha, .imp, 1, 3, .none⟩,
  ⟨.eor, .imm, 2, 2, .none⟩,
  ⟨.lsr, .acc, 1, 2, .none⟩,
  ⟨.alr, .imm, 2, 2, .none⟩,
  ⟨.jmp, .abs, 3, 3, .none⟩,
  ⟨.eor, .abs, 3, 4, .none⟩,
  ⟨.lsr, .abs, 3, 6, .none⟩,
  ⟨.sre, .abs, 3, 6, .none⟩]

/-- Opcodes $50 to $5F (30 R146). -/
def opcodeInfo5 : List OpInfo := [
  ⟨.bvc, .rel, 2, 2, .branch⟩,
  ⟨.eor, .indY, 2, 5, .page⟩,
  ⟨.undef, .imp1, 1, 1, .none⟩,
  ⟨.sre, .indY, 2, 8, .none⟩,
  ⟨.nopU, .zpX, 2, 4, .none⟩,
  ⟨.eor, .zpX, 2, 4, .none⟩,
  ⟨.lsr, .zpX, 2, 6, .none⟩,
  ⟨.sre, .zpX, 2, 6, .none⟩,
  ⟨.cli, .imp, 1, 2, .none⟩,
  ⟨.eor, .absY, 3, 4, .page⟩,
  ⟨.nopU, .imp, 1, 2, .none⟩,
  ⟨.sre, .absY, 3, 7, .none⟩,
  ⟨.nopU, .absX, 3, 4, .page⟩,
  ⟨.eor, .absX, 3, 4, .page⟩,
  ⟨.lsr, .absX, 3, 7, .none⟩,
  ⟨.sre, .absX, 3, 7, .none⟩]

/-- Opcodes $60 to $6F (30 R146). -/
def opcodeInfo6 : List OpInfo := [
  ⟨.rts, .imp, 1, 6, .none⟩,
  ⟨.adc, .indX, 2, 6, .none⟩,
  ⟨.undef, .imp1, 1, 1, .none⟩,
  ⟨.rra, .indX, 2, 8, .none⟩,
  ⟨.nopU, .zp, 2, 3, .none⟩,
  ⟨.adc, .zp, 2, 3, .none⟩,
  ⟨.ror, .zp, 2, 5, .none⟩,
  ⟨.rra, .zp, 2, 5, .none⟩,
  ⟨.pla, .imp, 1, 4, .none⟩,
  ⟨.adc, .imm, 2, 2, .none⟩,
  ⟨.ror, .acc, 1, 2, .none⟩,
  ⟨.undef, .imp1, 1, 1, .none⟩,
  ⟨.jmp, .ind, 3, 5, .none⟩,
  ⟨.adc, .abs, 3, 4, .none⟩,
  ⟨.ror, .abs, 3, 6, .none⟩,
  ⟨.rra, .abs, 3, 6, .none⟩]

/-- Opcodes $70 to $7F (30 R146). -/
def opcodeInfo7 : List OpInfo := [
  ⟨.bvs, .rel, 2, 2, .branch⟩,
  ⟨.adc, .indY, 2, 5, .page⟩,
  ⟨.undef, .imp1, 1, 1, .none⟩,
  ⟨.rra, .indY, 2, 8, .none⟩,
  ⟨.nopU, .zpX, 2, 4, .none⟩,
  ⟨.adc, .zpX, 2, 4, .none⟩,
  ⟨.ror, .zpX, 2, 6, .none⟩,
  ⟨.rra, .zpX, 2, 6, .none⟩,
  ⟨.sei, .imp, 1, 2, .none⟩,
  ⟨.adc, .absY, 3, 4, .page⟩,
  ⟨.nopU, .imp, 1, 2, .none⟩,
  ⟨.rra, .absY, 3, 7, .none⟩,
  ⟨.nopU, .absX, 3, 4, .page⟩,
  ⟨.adc, .absX, 3, 4, .page⟩,
  ⟨.ror, .absX, 3, 7, .none⟩,
  ⟨.rra, .absX, 3, 7, .none⟩]

/-- Opcodes $80 to $8F (30 R146). -/
def opcodeInfo8 : List OpInfo := [
  ⟨.nopU, .imm, 2, 2, .none⟩,
  ⟨.sta, .indX, 2, 6, .none⟩,
  ⟨.nopU, .imm, 2, 2, .none⟩,
  ⟨.sax, .indX, 2, 6, .none⟩,
  ⟨.sty, .zp, 2, 3, .none⟩,
  ⟨.sta, .zp, 2, 3, .none⟩,
  ⟨.stx, .zp, 2, 3, .none⟩,
  ⟨.sax, .zp, 2, 3, .none⟩,
  ⟨.dey, .imp, 1, 2, .none⟩,
  ⟨.nopU, .imm, 2, 2, .none⟩,
  ⟨.txa, .imp, 1, 2, .none⟩,
  ⟨.undef, .imp1, 1, 1, .none⟩,
  ⟨.sty, .abs, 3, 4, .none⟩,
  ⟨.sta, .abs, 3, 4, .none⟩,
  ⟨.stx, .abs, 3, 4, .none⟩,
  ⟨.sax, .abs, 3, 4, .none⟩]

/-- Opcodes $90 to $9F (30 R146). -/
def opcodeInfo9 : List OpInfo := [
  ⟨.bcc, .rel, 2, 2, .branch⟩,
  ⟨.sta, .indY, 2, 6, .none⟩,
  ⟨.undef, .imp1, 1, 1, .none⟩,
  ⟨.undef, .imp1, 1, 1, .none⟩,
  ⟨.sty, .zpX, 2, 4, .none⟩,
  ⟨.sta, .zpX, 2, 4, .none⟩,
  ⟨.stx, .zpY, 2, 4, .none⟩,
  ⟨.sax, .zpY, 2, 4, .none⟩,
  ⟨.tya, .imp, 1, 2, .none⟩,
  ⟨.sta, .absY, 3, 5, .none⟩,
  ⟨.txs, .imp, 1, 2, .none⟩,
  ⟨.undef, .imp1, 1, 1, .none⟩,
  ⟨.undef, .imp1, 1, 1, .none⟩,
  ⟨.sta, .absX, 3, 5, .none⟩,
  ⟨.undef, .imp1, 1, 1, .none⟩,
  ⟨.undef, .imp1, 1, 1, .none⟩]

/-- Opcodes $A0 to $AF (30 R146). -/
def opcodeInfoA : List OpInfo := [
  ⟨.ldy, .imm, 2, 2, .none⟩,
  ⟨.lda, .indX, 2, 6, .none⟩,
  ⟨.ldx, .imm, 2, 2, .none⟩,
  ⟨.lax, .indX, 2, 6, .none⟩,
  ⟨.ldy, .zp, 2, 3, .none⟩,
  ⟨.lda, .zp, 2, 3, .none⟩,
  ⟨.ldx, .zp, 2, 3, .none⟩,
  ⟨.lax, .zp, 2, 3, .none⟩,
  ⟨.tay, .imp, 1, 2, .none⟩,
  ⟨.lda, .imm, 2, 2, .none⟩,
  ⟨.tax, .imp, 1, 2, .none⟩,
  ⟨.undef, .imp1, 1, 1, .none⟩,
  ⟨.ldy, .abs, 3, 4, .none⟩,
  ⟨.lda, .abs, 3, 4, .none⟩,
  ⟨.ldx, .abs, 3, 4, .none⟩,
  ⟨.lax, .abs, 3, 4, .none⟩]

/-- Opcodes $B0 to $BF (30 R146). -/
def opcodeInfoB : List OpInfo := [
  ⟨.bcs, .rel, 2, 2, .branch⟩,
  ⟨.lda, .indY, 2, 5, .page⟩,
  ⟨.undef, .imp1, 1, 1, .none⟩,
  ⟨.lax, .indY, 2, 5, .page⟩,
  ⟨.ldy, .zpX, 2, 4, .none⟩,
  ⟨.lda, .zpX, 2, 4, .none⟩,
  ⟨.ldx, .zpY, 2, 4, .none⟩,
  ⟨.lax, .zpY, 2, 4, .none⟩,
  ⟨.clv, .imp, 1, 2, .none⟩,
  ⟨.lda, .absY, 3, 4, .page⟩,
  ⟨.tsx, .imp, 1, 2, .none⟩,
  ⟨.undef, .imp1, 1, 1, .none⟩,
  ⟨.ldy, .absX, 3, 4, .page⟩,
  ⟨.lda, .absX, 3, 4, .page⟩,
  ⟨.ldx, .absY, 3, 4, .page⟩,
  ⟨.lax, .absY, 3, 4, .page⟩]

/-- Opcodes $C0 to $CF (30 R146). -/
def opcodeInfoC : List OpInfo := [
  ⟨.cpy, .imm, 2, 2, .none⟩,
  ⟨.cmp, .indX, 2, 6, .none⟩,
  ⟨.nopU, .imm, 2, 2, .none⟩,
  ⟨.dcp, .indX, 2, 8, .none⟩,
  ⟨.cpy, .zp, 2, 3, .none⟩,
  ⟨.cmp, .zp, 2, 3, .none⟩,
  ⟨.dec, .zp, 2, 5, .none⟩,
  ⟨.dcp, .zp, 2, 5, .none⟩,
  ⟨.iny, .imp, 1, 2, .none⟩,
  ⟨.cmp, .imm, 2, 2, .none⟩,
  ⟨.dex, .imp, 1, 2, .none⟩,
  ⟨.undef, .imp1, 1, 1, .none⟩,
  ⟨.cpy, .abs, 3, 4, .none⟩,
  ⟨.cmp, .abs, 3, 4, .none⟩,
  ⟨.dec, .abs, 3, 6, .none⟩,
  ⟨.dcp, .abs, 3, 6, .none⟩]

/-- Opcodes $D0 to $DF (30 R146). -/
def opcodeInfoD : List OpInfo := [
  ⟨.bne, .rel, 2, 2, .branch⟩,
  ⟨.cmp, .indY, 2, 5, .page⟩,
  ⟨.undef, .imp1, 1, 1, .none⟩,
  ⟨.dcp, .indY, 2, 8, .none⟩,
  ⟨.nopU, .zpX, 2, 4, .none⟩,
  ⟨.cmp, .zpX, 2, 4, .none⟩,
  ⟨.dec, .zpX, 2, 6, .none⟩,
  ⟨.dcp, .zpX, 2, 6, .none⟩,
  ⟨.cld, .imp, 1, 2, .none⟩,
  ⟨.cmp, .absY, 3, 4, .page⟩,
  ⟨.nopU, .imp, 1, 2, .none⟩,
  ⟨.dcp, .absY, 3, 7, .none⟩,
  ⟨.nopU, .absX, 3, 4, .page⟩,
  ⟨.cmp, .absX, 3, 4, .page⟩,
  ⟨.dec, .absX, 3, 7, .none⟩,
  ⟨.dcp, .absX, 3, 7, .none⟩]

/-- Opcodes $E0 to $EF (30 R146). -/
def opcodeInfoE : List OpInfo := [
  ⟨.cpx, .imm, 2, 2, .none⟩,
  ⟨.sbc, .indX, 2, 6, .none⟩,
  ⟨.nopU, .imm, 2, 2, .none⟩,
  ⟨.isc, .indX, 2, 8, .none⟩,
  ⟨.cpx, .zp, 2, 3, .none⟩,
  ⟨.sbc, .zp, 2, 3, .none⟩,
  ⟨.inc, .zp, 2, 5, .none⟩,
  ⟨.isc, .zp, 2, 5, .none⟩,
  ⟨.inx, .imp, 1, 2, .none⟩,
  ⟨.sbc, .imm, 2, 2, .none⟩,
  ⟨.nop, .imp, 1, 2, .none⟩,
  ⟨.sbcU, .imm, 2, 2, .none⟩,
  ⟨.cpx, .abs, 3, 4, .none⟩,
  ⟨.sbc, .abs, 3, 4, .none⟩,
  ⟨.inc, .abs, 3, 6, .none⟩,
  ⟨.isc, .abs, 3, 6, .none⟩]

/-- Opcodes $F0 to $FF (30 R146). -/
def opcodeInfoF : List OpInfo := [
  ⟨.beq, .rel, 2, 2, .branch⟩,
  ⟨.sbc, .indY, 2, 5, .page⟩,
  ⟨.undef, .imp1, 1, 1, .none⟩,
  ⟨.isc, .indY, 2, 8, .none⟩,
  ⟨.nopU, .zpX, 2, 4, .none⟩,
  ⟨.sbc, .zpX, 2, 4, .none⟩,
  ⟨.inc, .zpX, 2, 6, .none⟩,
  ⟨.isc, .zpX, 2, 6, .none⟩,
  ⟨.sed, .imp, 1, 2, .none⟩,
  ⟨.sbc, .absY, 3, 4, .page⟩,
  ⟨.nopU, .imp, 1, 2, .none⟩,
  ⟨.isc, .absY, 3, 7, .none⟩,
  ⟨.nopU, .absX, 3, 4, .page⟩,
  ⟨.sbc, .absX, 3, 4, .page⟩,
  ⟨.inc, .absX, 3, 7, .none⟩,
  ⟨.isc, .absX, 3, 7, .none⟩]

/-- The table of 30 R146 by rows of the opcode map: opcode = 16 * row + column (30 R143). -/
def opcodeInfoRows : List (List OpInfo) :=
  [opcodeInfo0, opcodeInfo1, opcodeInfo2, opcodeInfo3, opcodeInfo4, opcodeInfo5, opcodeInfo6, opcodeInfo7,
   opcodeInfo8, opcodeInfo9, opcodeInfoA, opcodeInfoB, opcodeInfoC, opcodeInfoD, opcodeInfoE, opcodeInfoF]

/-- `TABLE[opc]` (40 R161): every opcode has an entry (40 R165), so the default is never taken. -/
def opInfo (op : Byte) : OpInfo :=
  ((opcodeInfoRows.getD (op.toNat / 16) []).getD (op.toNat % 16) ⟨.undef, .imp1, 1, 1, .none⟩)

-- The opcode map of 30 R143, one function a row: column, then the two bytes that follow the opcode.

/-- Opcodes $00 to $0F (30 R143). -/
def decodeRow0 (col : Nat) (b c : Byte) : Instr :=
  match col with
  | 0 => .brk
  | 1 => .oraIndX b
  | 2 => .undef .x02
  | 3 => .sloIndX b
  | 4 => .nopZp04 b
  | 5 => .oraZp b
  | 6 => .aslZp b
  | 7 => .sloZp b
  | 8 => .php
  | 9 => .oraImm b
  | 10 => .aslAcc
  | 11 => .ancImm0B b
  | 12 => .nopAbs0C (w16 c b)
  | 13 => .oraAbs (w16 c b)
  | 14 => .aslAbs (w16 c b)
  | _ => .sloAbs (w16 c b)

/-- Opcodes $10 to $1F (30 R143). -/
def decodeRow1 (col : Nat) (b c : Byte) : Instr :=
  match col with
  | 0 => .bpl b
  | 1 => .oraIndY b
  | 2 => .undef .x12
  | 3 => .sloIndY b
  | 4 => .nopZpX14 b
  | 5 => .oraZpX b
  | 6 => .aslZpX b
  | 7 => .sloZpX b
  | 8 => .clc
  | 9 => .oraAbsY (w16 c b)
  | 10 => .nopImp1A
  | 11 => .sloAbsY (w16 c b)
  | 12 => .nopAbsX1C (w16 c b)
  | 13 => .oraAbsX (w16 c b)
  | 14 => .aslAbsX (w16 c b)
  | _ => .sloAbsX (w16 c b)

/-- Opcodes $20 to $2F (30 R143). -/
def decodeRow2 (col : Nat) (b c : Byte) : Instr :=
  match col with
  | 0 => .jsrAbs (w16 c b)
  | 1 => .andIndX b
  | 2 => .undef .x22
  | 3 => .rlaIndX b
  | 4 => .bitZp b
  | 5 => .andZp b
  | 6 => .rolZp b
  | 7 => .rlaZp b
  | 8 => .plp
  | 9 => .andImm b
  | 10 => .rolAcc
  | 11 => .ancImm2B b
  | 12 => .bitAbs (w16 c b)
  | 13 => .andAbs (w16 c b)
  | 14 => .rolAbs (w16 c b)
  | _ => .rlaAbs (w16 c b)

/-- Opcodes $30 to $3F (30 R143). -/
def decodeRow3 (col : Nat) (b c : Byte) : Instr :=
  match col with
  | 0 => .bmi b
  | 1 => .andIndY b
  | 2 => .undef .x32
  | 3 => .rlaIndY b
  | 4 => .nopZpX34 b
  | 5 => .andZpX b
  | 6 => .rolZpX b
  | 7 => .rlaZpX b
  | 8 => .sec
  | 9 => .andAbsY (w16 c b)
  | 10 => .nopImp3A
  | 11 => .rlaAbsY (w16 c b)
  | 12 => .nopAbsX3C (w16 c b)
  | 13 => .andAbsX (w16 c b)
  | 14 => .rolAbsX (w16 c b)
  | _ => .rlaAbsX (w16 c b)

/-- Opcodes $40 to $4F (30 R143). -/
def decodeRow4 (col : Nat) (b c : Byte) : Instr :=
  match col with
  | 0 => .rti
  | 1 => .eorIndX b
  | 2 => .undef .x42
  | 3 => .sreIndX b
  | 4 => .nopZp44 b
  | 5 => .eorZp b
  | 6 => .lsrZp b
  | 7 => .sreZp b
  | 8 => .pha
  | 9 => .eorImm b
  | 10 => .lsrAcc
  | 11 => .alrImm b
  | 12 => .jmpAbs (w16 c b)
  | 13 => .eorAbs (w16 c b)
  | 14 => .lsrAbs (w16 c b)
  | _ => .sreAbs (w16 c b)

/-- Opcodes $50 to $5F (30 R143). -/
def decodeRow5 (col : Nat) (b c : Byte) : Instr :=
  match col with
  | 0 => .bvc b
  | 1 => .eorIndY b
  | 2 => .undef .x52
  | 3 => .sreIndY b
  | 4 => .nopZpX54 b
  | 5 => .eorZpX b
  | 6 => .lsrZpX b
  | 7 => .sreZpX b
  | 8 => .cli
  | 9 => .eorAbsY (w16 c b)
  | 10 => .nopImp5A
  | 11 => .sreAbsY (w16 c b)
  | 12 => .nopAbsX5C (w16 c b)
  | 13 => .eorAbsX (w16 c b)
  | 14 => .lsrAbsX (w16 c b)
  | _ => .sreAbsX (w16 c b)

/-- Opcodes $60 to $6F (30 R143). -/
def decodeRow6 (col : Nat) (b c : Byte) : Instr :=
  match col with
  | 0 => .rts
  | 1 => .adcIndX b
  | 2 => .undef .x62
  | 3 => .rraIndX b
  | 4 => .nopZp64 b
  | 5 => .adcZp b
  | 6 => .rorZp b
  | 7 => .rraZp b
  | 8 => .pla
  | 9 => .adcImm b
  | 10 => .rorAcc
  | 11 => .undef .x6B
  | 12 => .jmpInd (w16 c b)
  | 13 => .adcAbs (w16 c b)
  | 14 => .rorAbs (w16 c b)
  | _ => .rraAbs (w16 c b)

/-- Opcodes $70 to $7F (30 R143). -/
def decodeRow7 (col : Nat) (b c : Byte) : Instr :=
  match col with
  | 0 => .bvs b
  | 1 => .adcIndY b
  | 2 => .undef .x72
  | 3 => .rraIndY b
  | 4 => .nopZpX74 b
  | 5 => .adcZpX b
  | 6 => .rorZpX b
  | 7 => .rraZpX b
  | 8 => .sei
  | 9 => .adcAbsY (w16 c b)
  | 10 => .nopImp7A
  | 11 => .rraAbsY (w16 c b)
  | 12 => .nopAbsX7C (w16 c b)
  | 13 => .adcAbsX (w16 c b)
  | 14 => .rorAbsX (w16 c b)
  | _ => .rraAbsX (w16 c b)

/-- Opcodes $80 to $8F (30 R143). -/
def decodeRow8 (col : Nat) (b c : Byte) : Instr :=
  match col with
  | 0 => .nopImm80 b
  | 1 => .staIndX b
  | 2 => .nopImm82 b
  | 3 => .saxIndX b
  | 4 => .styZp b
  | 5 => .staZp b
  | 6 => .stxZp b
  | 7 => .saxZp b
  | 8 => .dey
  | 9 => .nopImm89 b
  | 10 => .txa
  | 11 => .undef .x8B
  | 12 => .styAbs (w16 c b)
  | 13 => .staAbs (w16 c b)
  | 14 => .stxAbs (w16 c b)
  | _ => .saxAbs (w16 c b)

/-- Opcodes $90 to $9F (30 R143). -/
def decodeRow9 (col : Nat) (b c : Byte) : Instr :=
  match col with
  | 0 => .bcc b
  | 1 => .staIndY b
  | 2 => .undef .x92
  | 3 => .undef .x93
  | 4 => .styZpX b
  | 5 => .staZpX b
  | 6 => .stxZpY b
  | 7 => .saxZpY b
  | 8 => .tya
  | 9 => .staAbsY (w16 c b)
  | 10 => .txs
  | 11 => .undef .x9B
  | 12 => .undef .x9C
  | 13 => .staAbsX (w16 c b)
  | 14 => .undef .x9E
  | _ => .undef .x9F

/-- Opcodes $A0 to $AF (30 R143). -/
def decodeRowA (col : Nat) (b c : Byte) : Instr :=
  match col with
  | 0 => .ldyImm b
  | 1 => .ldaIndX b
  | 2 => .ldxImm b
  | 3 => .laxIndX b
  | 4 => .ldyZp b
  | 5 => .ldaZp b
  | 6 => .ldxZp b
  | 7 => .laxZp b
  | 8 => .tay
  | 9 => .ldaImm b
  | 10 => .tax
  | 11 => .undef .xAB
  | 12 => .ldyAbs (w16 c b)
  | 13 => .ldaAbs (w16 c b)
  | 14 => .ldxAbs (w16 c b)
  | _ => .laxAbs (w16 c b)

/-- Opcodes $B0 to $BF (30 R143). -/
def decodeRowB (col : Nat) (b c : Byte) : Instr :=
  match col with
  | 0 => .bcs b
  | 1 => .ldaIndY b
  | 2 => .undef .xB2
  | 3 => .laxIndY b
  | 4 => .ldyZpX b
  | 5 => .ldaZpX b
  | 6 => .ldxZpY b
  | 7 => .laxZpY b
  | 8 => .clv
  | 9 => .ldaAbsY (w16 c b)
  | 10 => .tsx
  | 11 => .undef .xBB
  | 12 => .ldyAbsX (w16 c b)
  | 13 => .ldaAbsX (w16 c b)
  | 14 => .ldxAbsY (w16 c b)
  | _ => .laxAbsY (w16 c b)

/-- Opcodes $C0 to $CF (30 R143). -/
def decodeRowC (col : Nat) (b c : Byte) : Instr :=
  match col with
  | 0 => .cpyImm b
  | 1 => .cmpIndX b
  | 2 => .nopImmC2 b
  | 3 => .dcpIndX b
  | 4 => .cpyZp b
  | 5 => .cmpZp b
  | 6 => .decZp b
  | 7 => .dcpZp b
  | 8 => .iny
  | 9 => .cmpImm b
  | 10 => .dex
  | 11 => .undef .xCB
  | 12 => .cpyAbs (w16 c b)
  | 13 => .cmpAbs (w16 c b)
  | 14 => .decAbs (w16 c b)
  | _ => .dcpAbs (w16 c b)

/-- Opcodes $D0 to $DF (30 R143). -/
def decodeRowD (col : Nat) (b c : Byte) : Instr :=
  match col with
  | 0 => .bne b
  | 1 => .cmpIndY b
  | 2 => .undef .xD2
  | 3 => .dcpIndY b
  | 4 => .nopZpXD4 b
  | 5 => .cmpZpX b
  | 6 => .decZpX b
  | 7 => .dcpZpX b
  | 8 => .cld
  | 9 => .cmpAbsY (w16 c b)
  | 10 => .nopImpDA
  | 11 => .dcpAbsY (w16 c b)
  | 12 => .nopAbsXDC (w16 c b)
  | 13 => .cmpAbsX (w16 c b)
  | 14 => .decAbsX (w16 c b)
  | _ => .dcpAbsX (w16 c b)

/-- Opcodes $E0 to $EF (30 R143). -/
def decodeRowE (col : Nat) (b c : Byte) : Instr :=
  match col with
  | 0 => .cpxImm b
  | 1 => .sbcIndX b
  | 2 => .nopImmE2 b
  | 3 => .iscIndX b
  | 4 => .cpxZp b
  | 5 => .sbcZp b
  | 6 => .incZp b
  | 7 => .iscZp b
  | 8 => .inx
  | 9 => .sbcImm b
  | 10 => .nop
  | 11 => .sbcImmEB b
  | 12 => .cpxAbs (w16 c b)
  | 13 => .sbcAbs (w16 c b)
  | 14 => .incAbs (w16 c b)
  | _ => .iscAbs (w16 c b)

/-- Opcodes $F0 to $FF (30 R143). -/
def decodeRowF (col : Nat) (b c : Byte) : Instr :=
  match col with
  | 0 => .beq b
  | 1 => .sbcIndY b
  | 2 => .undef .xF2
  | 3 => .iscIndY b
  | 4 => .nopZpXF4 b
  | 5 => .sbcZpX b
  | 6 => .incZpX b
  | 7 => .iscZpX b
  | 8 => .sed
  | 9 => .sbcAbsY (w16 c b)
  | 10 => .nopImpFA
  | 11 => .iscAbsY (w16 c b)
  | 12 => .nopAbsXFC (w16 c b)
  | 13 => .sbcAbsX (w16 c b)
  | 14 => .incAbsX (w16 c b)
  | _ => .iscAbsX (w16 c b)

/-- The instruction of opcode `op` whose operand bytes are `b` (the first) and `c` (the second); a byte the mode
does not have is not looked at. Total: every byte is an opcode (30 R140, R144, R147). -/
def decodeOp (op b c : Byte) : Instr :=
  match op.toNat / 16 with
  | 0 => decodeRow0 (op.toNat % 16) b c
  | 1 => decodeRow1 (op.toNat % 16) b c
  | 2 => decodeRow2 (op.toNat % 16) b c
  | 3 => decodeRow3 (op.toNat % 16) b c
  | 4 => decodeRow4 (op.toNat % 16) b c
  | 5 => decodeRow5 (op.toNat % 16) b c
  | 6 => decodeRow6 (op.toNat % 16) b c
  | 7 => decodeRow7 (op.toNat % 16) b c
  | 8 => decodeRow8 (op.toNat % 16) b c
  | 9 => decodeRow9 (op.toNat % 16) b c
  | 10 => decodeRowA (op.toNat % 16) b c
  | 11 => decodeRowB (op.toNat % 16) b c
  | 12 => decodeRowC (op.toNat % 16) b c
  | 13 => decodeRowD (op.toNat % 16) b c
  | 14 => decodeRowE (op.toNat % 16) b c
  | _ => decodeRowF (op.toNat % 16) b c

/-- Why a byte string gives no instruction: only for want of bytes (30 R147: no encoding is reserved). -/
inductive DecodeError where
  | noOpcode
  | missingOperandByte
  deriving DecidableEq, Repr

/-- The decoder on a byte string: the first instruction and the bytes after it (30 R140, R141). -/
def decode : List Byte → Except DecodeError (Instr × List Byte)
  | [] => .error .noOpcode
  | op :: rest =>
    match (opInfo op).mode.operandBytes, rest with
    | 0, rest => .ok (decodeOp op 0 0, rest)
    | 1, b :: rest => .ok (decodeOp op b 0, rest)
    | 2, b :: c :: rest => .ok (decodeOp op b c, rest)
    | _, _ => .error .missingOperandByte

-- The encoder.

/-- The opcode byte of an undefined opcode (30 R145). -/
def UndefOpcode.byte : UndefOpcode → Byte
  | .x02 => 0x02
  | .x12 => 0x12
  | .x22 => 0x22
  | .x32 => 0x32
  | .x42 => 0x42
  | .x52 => 0x52
  | .x62 => 0x62
  | .x6B => 0x6B
  | .x72 => 0x72
  | .x8B => 0x8B
  | .x92 => 0x92
  | .x93 => 0x93
  | .x9B => 0x9B
  | .x9C => 0x9C
  | .x9E => 0x9E
  | .x9F => 0x9F
  | .xAB => 0xAB
  | .xB2 => 0xB2
  | .xBB => 0xBB
  | .xCB => 0xCB
  | .xD2 => 0xD2
  | .xF2 => 0xF2

/-- The opcode byte of an instruction (30 R143). -/
def Instr.opcode : Instr → Byte
  | .brk => 0x00
  | .oraIndX _ => 0x01
  | .undef op => op.byte
  | .sloIndX _ => 0x03
  | .nopZp04 _ => 0x04
  | .oraZp _ => 0x05
  | .aslZp _ => 0x06
  | .sloZp _ => 0x07
  | .php => 0x08
  | .oraImm _ => 0x09
  | .aslAcc => 0x0A
  | .ancImm0B _ => 0x0B
  | .nopAbs0C _ => 0x0C
  | .oraAbs _ => 0x0D
  | .aslAbs _ => 0x0E
  | .sloAbs _ => 0x0F
  | .bpl _ => 0x10
  | .oraIndY _ => 0x11
  | .sloIndY _ => 0x13
  | .nopZpX14 _ => 0x14
  | .oraZpX _ => 0x15
  | .aslZpX _ => 0x16
  | .sloZpX _ => 0x17
  | .clc => 0x18
  | .oraAbsY _ => 0x19
  | .nopImp1A => 0x1A
  | .sloAbsY _ => 0x1B
  | .nopAbsX1C _ => 0x1C
  | .oraAbsX _ => 0x1D
  | .aslAbsX _ => 0x1E
  | .sloAbsX _ => 0x1F
  | .jsrAbs _ => 0x20
  | .andIndX _ => 0x21
  | .rlaIndX _ => 0x23
  | .bitZp _ => 0x24
  | .andZp _ => 0x25
  | .rolZp _ => 0x26
  | .rlaZp _ => 0x27
  | .plp => 0x28
  | .andImm _ => 0x29
  | .rolAcc => 0x2A
  | .ancImm2B _ => 0x2B
  | .bitAbs _ => 0x2C
  | .andAbs _ => 0x2D
  | .rolAbs _ => 0x2E
  | .rlaAbs _ => 0x2F
  | .bmi _ => 0x30
  | .andIndY _ => 0x31
  | .rlaIndY _ => 0x33
  | .nopZpX34 _ => 0x34
  | .andZpX _ => 0x35
  | .rolZpX _ => 0x36
  | .rlaZpX _ => 0x37
  | .sec => 0x38
  | .andAbsY _ => 0x39
  | .nopImp3A => 0x3A
  | .rlaAbsY _ => 0x3B
  | .nopAbsX3C _ => 0x3C
  | .andAbsX _ => 0x3D
  | .rolAbsX _ => 0x3E
  | .rlaAbsX _ => 0x3F
  | .rti => 0x40
  | .eorIndX _ => 0x41
  | .sreIndX _ => 0x43
  | .nopZp44 _ => 0x44
  | .eorZp _ => 0x45
  | .lsrZp _ => 0x46
  | .sreZp _ => 0x47
  | .pha => 0x48
  | .eorImm _ => 0x49
  | .lsrAcc => 0x4A
  | .alrImm _ => 0x4B
  | .jmpAbs _ => 0x4C
  | .eorAbs _ => 0x4D
  | .lsrAbs _ => 0x4E
  | .sreAbs _ => 0x4F
  | .bvc _ => 0x50
  | .eorIndY _ => 0x51
  | .sreIndY _ => 0x53
  | .nopZpX54 _ => 0x54
  | .eorZpX _ => 0x55
  | .lsrZpX _ => 0x56
  | .sreZpX _ => 0x57
  | .cli => 0x58
  | .eorAbsY _ => 0x59
  | .nopImp5A => 0x5A
  | .sreAbsY _ => 0x5B
  | .nopAbsX5C _ => 0x5C
  | .eorAbsX _ => 0x5D
  | .lsrAbsX _ => 0x5E
  | .sreAbsX _ => 0x5F
  | .rts => 0x60
  | .adcIndX _ => 0x61
  | .rraIndX _ => 0x63
  | .nopZp64 _ => 0x64
  | .adcZp _ => 0x65
  | .rorZp _ => 0x66
  | .rraZp _ => 0x67
  | .pla => 0x68
  | .adcImm _ => 0x69
  | .rorAcc => 0x6A
  | .jmpInd _ => 0x6C
  | .adcAbs _ => 0x6D
  | .rorAbs _ => 0x6E
  | .rraAbs _ => 0x6F
  | .bvs _ => 0x70
  | .adcIndY _ => 0x71
  | .rraIndY _ => 0x73
  | .nopZpX74 _ => 0x74
  | .adcZpX _ => 0x75
  | .rorZpX _ => 0x76
  | .rraZpX _ => 0x77
  | .sei => 0x78
  | .adcAbsY _ => 0x79
  | .nopImp7A => 0x7A
  | .rraAbsY _ => 0x7B
  | .nopAbsX7C _ => 0x7C
  | .adcAbsX _ => 0x7D
  | .rorAbsX _ => 0x7E
  | .rraAbsX _ => 0x7F
  | .nopImm80 _ => 0x80
  | .staIndX _ => 0x81
  | .nopImm82 _ => 0x82
  | .saxIndX _ => 0x83
  | .styZp _ => 0x84
  | .staZp _ => 0x85
  | .stxZp _ => 0x86
  | .saxZp _ => 0x87
  | .dey => 0x88
  | .nopImm89 _ => 0x89
  | .txa => 0x8A
  | .styAbs _ => 0x8C
  | .staAbs _ => 0x8D
  | .stxAbs _ => 0x8E
  | .saxAbs _ => 0x8F
  | .bcc _ => 0x90
  | .staIndY _ => 0x91
  | .styZpX _ => 0x94
  | .staZpX _ => 0x95
  | .stxZpY _ => 0x96
  | .saxZpY _ => 0x97
  | .tya => 0x98
  | .staAbsY _ => 0x99
  | .txs => 0x9A
  | .staAbsX _ => 0x9D
  | .ldyImm _ => 0xA0
  | .ldaIndX _ => 0xA1
  | .ldxImm _ => 0xA2
  | .laxIndX _ => 0xA3
  | .ldyZp _ => 0xA4
  | .ldaZp _ => 0xA5
  | .ldxZp _ => 0xA6
  | .laxZp _ => 0xA7
  | .tay => 0xA8
  | .ldaImm _ => 0xA9
  | .tax => 0xAA
  | .ldyAbs _ => 0xAC
  | .ldaAbs _ => 0xAD
  | .ldxAbs _ => 0xAE
  | .laxAbs _ => 0xAF
  | .bcs _ => 0xB0
  | .ldaIndY _ => 0xB1
  | .laxIndY _ => 0xB3
  | .ldyZpX _ => 0xB4
  | .ldaZpX _ => 0xB5
  | .ldxZpY _ => 0xB6
  | .laxZpY _ => 0xB7
  | .clv => 0xB8
  | .ldaAbsY _ => 0xB9
  | .tsx => 0xBA
  | .ldyAbsX _ => 0xBC
  | .ldaAbsX _ => 0xBD
  | .ldxAbsY _ => 0xBE
  | .laxAbsY _ => 0xBF
  | .cpyImm _ => 0xC0
  | .cmpIndX _ => 0xC1
  | .nopImmC2 _ => 0xC2
  | .dcpIndX _ => 0xC3
  | .cpyZp _ => 0xC4
  | .cmpZp _ => 0xC5
  | .decZp _ => 0xC6
  | .dcpZp _ => 0xC7
  | .iny => 0xC8
  | .cmpImm _ => 0xC9
  | .dex => 0xCA
  | .cpyAbs _ => 0xCC
  | .cmpAbs _ => 0xCD
  | .decAbs _ => 0xCE
  | .dcpAbs _ => 0xCF
  | .bne _ => 0xD0
  | .cmpIndY _ => 0xD1
  | .dcpIndY _ => 0xD3
  | .nopZpXD4 _ => 0xD4
  | .cmpZpX _ => 0xD5
  | .decZpX _ => 0xD6
  | .dcpZpX _ => 0xD7
  | .cld => 0xD8
  | .cmpAbsY _ => 0xD9
  | .nopImpDA => 0xDA
  | .dcpAbsY _ => 0xDB
  | .nopAbsXDC _ => 0xDC
  | .cmpAbsX _ => 0xDD
  | .decAbsX _ => 0xDE
  | .dcpAbsX _ => 0xDF
  | .cpxImm _ => 0xE0
  | .sbcIndX _ => 0xE1
  | .nopImmE2 _ => 0xE2
  | .iscIndX _ => 0xE3
  | .cpxZp _ => 0xE4
  | .sbcZp _ => 0xE5
  | .incZp _ => 0xE6
  | .iscZp _ => 0xE7
  | .inx => 0xE8
  | .sbcImm _ => 0xE9
  | .nop => 0xEA
  | .sbcImmEB _ => 0xEB
  | .cpxAbs _ => 0xEC
  | .sbcAbs _ => 0xED
  | .incAbs _ => 0xEE
  | .iscAbs _ => 0xEF
  | .beq _ => 0xF0
  | .sbcIndY _ => 0xF1
  | .iscIndY _ => 0xF3
  | .nopZpXF4 _ => 0xF4
  | .sbcZpX _ => 0xF5
  | .incZpX _ => 0xF6
  | .iscZpX _ => 0xF7
  | .sed => 0xF8
  | .sbcAbsY _ => 0xF9
  | .nopImpFA => 0xFA
  | .iscAbsY _ => 0xFB
  | .nopAbsXFC _ => 0xFC
  | .sbcAbsX _ => 0xFD
  | .incAbsX _ => 0xFE
  | .iscAbsX _ => 0xFF

/-- The operand of an instruction in its addressing mode (30 R141, R143). -/
def Instr.operand : Instr → Operand
  | .brk => .imp
  | .oraIndX a => .indX a
  | .undef _ => .imp1
  | .sloIndX a => .indX a
  | .nopZp04 a => .zp a
  | .oraZp a => .zp a
  | .aslZp a => .zp a
  | .sloZp a => .zp a
  | .php => .imp
  | .oraImm v => .imm v
  | .aslAcc => .acc
  | .ancImm0B v => .imm v
  | .nopAbs0C w => .abs w
  | .oraAbs w => .abs w
  | .aslAbs w => .abs w
  | .sloAbs w => .abs w
  | .bpl o => .rel o
  | .oraIndY a => .indY a
  | .sloIndY a => .indY a
  | .nopZpX14 a => .zpX a
  | .oraZpX a => .zpX a
  | .aslZpX a => .zpX a
  | .sloZpX a => .zpX a
  | .clc => .imp
  | .oraAbsY w => .absY w
  | .nopImp1A => .imp
  | .sloAbsY w => .absY w
  | .nopAbsX1C w => .absX w
  | .oraAbsX w => .absX w
  | .aslAbsX w => .absX w
  | .sloAbsX w => .absX w
  | .jsrAbs w => .abs w
  | .andIndX a => .indX a
  | .rlaIndX a => .indX a
  | .bitZp a => .zp a
  | .andZp a => .zp a
  | .rolZp a => .zp a
  | .rlaZp a => .zp a
  | .plp => .imp
  | .andImm v => .imm v
  | .rolAcc => .acc
  | .ancImm2B v => .imm v
  | .bitAbs w => .abs w
  | .andAbs w => .abs w
  | .rolAbs w => .abs w
  | .rlaAbs w => .abs w
  | .bmi o => .rel o
  | .andIndY a => .indY a
  | .rlaIndY a => .indY a
  | .nopZpX34 a => .zpX a
  | .andZpX a => .zpX a
  | .rolZpX a => .zpX a
  | .rlaZpX a => .zpX a
  | .sec => .imp
  | .andAbsY w => .absY w
  | .nopImp3A => .imp
  | .rlaAbsY w => .absY w
  | .nopAbsX3C w => .absX w
  | .andAbsX w => .absX w
  | .rolAbsX w => .absX w
  | .rlaAbsX w => .absX w
  | .rti => .imp
  | .eorIndX a => .indX a
  | .sreIndX a => .indX a
  | .nopZp44 a => .zp a
  | .eorZp a => .zp a
  | .lsrZp a => .zp a
  | .sreZp a => .zp a
  | .pha => .imp
  | .eorImm v => .imm v
  | .lsrAcc => .acc
  | .alrImm v => .imm v
  | .jmpAbs w => .abs w
  | .eorAbs w => .abs w
  | .lsrAbs w => .abs w
  | .sreAbs w => .abs w
  | .bvc o => .rel o
  | .eorIndY a => .indY a
  | .sreIndY a => .indY a
  | .nopZpX54 a => .zpX a
  | .eorZpX a => .zpX a
  | .lsrZpX a => .zpX a
  | .sreZpX a => .zpX a
  | .cli => .imp
  | .eorAbsY w => .absY w
  | .nopImp5A => .imp
  | .sreAbsY w => .absY w
  | .nopAbsX5C w => .absX w
  | .eorAbsX w => .absX w
  | .lsrAbsX w => .absX w
  | .sreAbsX w => .absX w
  | .rts => .imp
  | .adcIndX a => .indX a
  | .rraIndX a => .indX a
  | .nopZp64 a => .zp a
  | .adcZp a => .zp a
  | .rorZp a => .zp a
  | .rraZp a => .zp a
  | .pla => .imp
  | .adcImm v => .imm v
  | .rorAcc => .acc
  | .jmpInd w => .ind w
  | .adcAbs w => .abs w
  | .rorAbs w => .abs w
  | .rraAbs w => .abs w
  | .bvs o => .rel o
  | .adcIndY a => .indY a
  | .rraIndY a => .indY a
  | .nopZpX74 a => .zpX a
  | .adcZpX a => .zpX a
  | .rorZpX a => .zpX a
  | .rraZpX a => .zpX a
  | .sei => .imp
  | .adcAbsY w => .absY w
  | .nopImp7A => .imp
  | .rraAbsY w => .absY w
  | .nopAbsX7C w => .absX w
  | .adcAbsX w => .absX w
  | .rorAbsX w => .absX w
  | .rraAbsX w => .absX w
  | .nopImm80 v => .imm v
  | .staIndX a => .indX a
  | .nopImm82 v => .imm v
  | .saxIndX a => .indX a
  | .styZp a => .zp a
  | .staZp a => .zp a
  | .stxZp a => .zp a
  | .saxZp a => .zp a
  | .dey => .imp
  | .nopImm89 v => .imm v
  | .txa => .imp
  | .styAbs w => .abs w
  | .staAbs w => .abs w
  | .stxAbs w => .abs w
  | .saxAbs w => .abs w
  | .bcc o => .rel o
  | .staIndY a => .indY a
  | .styZpX a => .zpX a
  | .staZpX a => .zpX a
  | .stxZpY a => .zpY a
  | .saxZpY a => .zpY a
  | .tya => .imp
  | .staAbsY w => .absY w
  | .txs => .imp
  | .staAbsX w => .absX w
  | .ldyImm v => .imm v
  | .ldaIndX a => .indX a
  | .ldxImm v => .imm v
  | .laxIndX a => .indX a
  | .ldyZp a => .zp a
  | .ldaZp a => .zp a
  | .ldxZp a => .zp a
  | .laxZp a => .zp a
  | .tay => .imp
  | .ldaImm v => .imm v
  | .tax => .imp
  | .ldyAbs w => .abs w
  | .ldaAbs w => .abs w
  | .ldxAbs w => .abs w
  | .laxAbs w => .abs w
  | .bcs o => .rel o
  | .ldaIndY a => .indY a
  | .laxIndY a => .indY a
  | .ldyZpX a => .zpX a
  | .ldaZpX a => .zpX a
  | .ldxZpY a => .zpY a
  | .laxZpY a => .zpY a
  | .clv => .imp
  | .ldaAbsY w => .absY w
  | .tsx => .imp
  | .ldyAbsX w => .absX w
  | .ldaAbsX w => .absX w
  | .ldxAbsY w => .absY w
  | .laxAbsY w => .absY w
  | .cpyImm v => .imm v
  | .cmpIndX a => .indX a
  | .nopImmC2 v => .imm v
  | .dcpIndX a => .indX a
  | .cpyZp a => .zp a
  | .cmpZp a => .zp a
  | .decZp a => .zp a
  | .dcpZp a => .zp a
  | .iny => .imp
  | .cmpImm v => .imm v
  | .dex => .imp
  | .cpyAbs w => .abs w
  | .cmpAbs w => .abs w
  | .decAbs w => .abs w
  | .dcpAbs w => .abs w
  | .bne o => .rel o
  | .cmpIndY a => .indY a
  | .dcpIndY a => .indY a
  | .nopZpXD4 a => .zpX a
  | .cmpZpX a => .zpX a
  | .decZpX a => .zpX a
  | .dcpZpX a => .zpX a
  | .cld => .imp
  | .cmpAbsY w => .absY w
  | .nopImpDA => .imp
  | .dcpAbsY w => .absY w
  | .nopAbsXDC w => .absX w
  | .cmpAbsX w => .absX w
  | .decAbsX w => .absX w
  | .dcpAbsX w => .absX w
  | .cpxImm v => .imm v
  | .sbcIndX a => .indX a
  | .nopImmE2 v => .imm v
  | .iscIndX a => .indX a
  | .cpxZp a => .zp a
  | .sbcZp a => .zp a
  | .incZp a => .zp a
  | .iscZp a => .zp a
  | .inx => .imp
  | .sbcImm v => .imm v
  | .nop => .imp
  | .sbcImmEB v => .imm v
  | .cpxAbs w => .abs w
  | .sbcAbs w => .abs w
  | .incAbs w => .abs w
  | .iscAbs w => .abs w
  | .beq o => .rel o
  | .sbcIndY a => .indY a
  | .iscIndY a => .indY a
  | .nopZpXF4 a => .zpX a
  | .sbcZpX a => .zpX a
  | .incZpX a => .zpX a
  | .iscZpX a => .zpX a
  | .sed => .imp
  | .sbcAbsY w => .absY w
  | .nopImpFA => .imp
  | .iscAbsY w => .absY w
  | .nopAbsXFC w => .absX w
  | .sbcAbsX w => .absX w
  | .incAbsX w => .absX w
  | .iscAbsX w => .absX w

/-- The mode of an operand (30 R141). -/
def Operand.mode : Operand → Mode
  | .imp => .imp
  | .acc => .acc
  | .imm _ => .imm
  | .zp _ => .zp
  | .zpX _ => .zpX
  | .zpY _ => .zpY
  | .abs _ => .abs
  | .absX _ => .absX
  | .absY _ => .absY
  | .ind _ => .ind
  | .indX _ => .indX
  | .indY _ => .indY
  | .rel _ => .rel
  | .imp1 => .imp1

/-- The operand bytes, low byte first (30 R141, 20 R87). -/
def Operand.bytes : Operand → List Byte
  | .imp | .acc | .imp1 => []
  | .imm v => [v]
  | .zp a | .zpX a | .zpY a | .indX a | .indY a => [a]
  | .rel o => [o]
  | .abs w | .absX w | .absY w | .ind w => [lo w, hi w]

/-- The bytes of an instruction, the opcode first (30 R140, R141). -/
def encode (i : Instr) : List Byte := i.opcode :: i.operand.bytes

/-- The table's row of an instruction (30 R146). -/
def Instr.info (i : Instr) : OpInfo := opInfo i.opcode

/-- The mnemonic of an instruction (30 R146). -/
def Instr.mnemonic (i : Instr) : Mnemonic := i.info.mnemonic

/-- The 22 undefined opcodes (30 R145). -/
def undefinedOpcodes : List Byte :=
  [0x02, 0x12, 0x22, 0x32, 0x42, 0x52, 0x62, 0x72, 0x92, 0xB2, 0xD2,
   0xF2, 0x6B, 0x8B, 0x93, 0x9B, 0x9C, 0x9E, 0x9F, 0xAB, 0xBB, 0xCB]

/-- Byte `k` of an instruction whose bits are numbered as the table numbers them (byte 0 is bits 7..0), of
which `nbits` are given and the rest are 0. -/
def tableByte (nbits w k : Nat) : Byte := BitVec.ofNat 8 (w % 2 ^ nbits / 256 ^ k)

/-- The instruction the decoder reads from an instruction whose bits are `w`, numbered as
spec/opcode_table.json numbers them. -/
def decodeTableWord (nbits w : Nat) : Option Instr :=
  match decode [tableByte nbits w 0, tableByte nbits w 1, tableByte nbits w 2] with
  | .ok (i, _) => some i
  | .error _ => none

end Sys2Proof
end

