-- ==== Sys2Proof/Config.lean ====
section
/-! DEFINITION. What is fixed for the machine and what the spec leaves open: the sizes of 00 R8 and the open
parameters of 00 R9, the latter as constants without a body, so that no proof can use a value of theirs. -/

namespace Sys2Proof

/-- Bytes of work RAM (00 R8, 10 R58). -/
def Config.wramSize : Nat := 2048

/-- Bytes of PRG-RAM storage (00 R8, 10 R52, D37). -/
def Config.prgRamSize : Nat := 32768

/-- Bytes of one PRG-ROM bank, the unit of the iNES header (00 R8, 10 R50). -/
def Config.prgBankSize : Nat := 16384

/-- Bytes of one CHR bank, the unit of the iNES header (00 R8, 10 R51). -/
def Config.chrBankSize : Nat := 8192

/-- Bytes of the four physical nametables (00 R8, 10 R33). -/
def Config.ntSize : Nat := 4096

/-- Bytes of primary OAM (00 R8, 10 R34). -/
def Config.oamSize : Nat := 256

/-- Bytes of palette RAM (00 R8, 10 R32). -/
def Config.palSize : Nat := 32

/-- NTSC_PALETTE (00 R9, D29): byte `i` of the 1,536-byte RGB table. OPEN: no value is given by the spec, so a
claim about a colour holds for every table (log 7). -/
opaque Config.ntscPalette : Nat → BitVec 8

/-- GRAYSCALE_EFFECT (00 R9, D28): what PPUMASK bit 0 does to a colour index. OPEN (log 8). -/
opaque Config.grayscaleEffect : BitVec 6 → BitVec 6

/-- The frame buffer's contents before the first write, "unspecified" (10 R49): a free value for each pixel,
numbered 256 * y + x (log 6). No step reads it. -/
opaque Config.unwrittenPixel : Nat → BitVec 32

/-- Whether a snapshot request reports an error (60 R366), for the request answered after `n` earlier answers: a free
value, since no rule gives a condition (log 24). -/
opaque Config.snapshotError : Nat → Bool

end Sys2Proof
end

