-- ==== Sys2Proof/Machine/State.lean ====
section
/-! DEFINITION. The state of the machine (10 R20 to R59), as plain data; what stops a step; the state after reset.

State.reset is the machine right after power-on (70 R380). The host's reset (70 R381 to R385) is an operation on
a state: Machine/Reset.lean. -/

namespace Sys2Proof.Machine

/-- A byte memory: the cells that differ from what an unlisted address reads as, addresses strictly rising.
Machine/Memory.lean gives the canonical form and the operations. -/
abbrev Memory := List Host.Cell

/-- The pixels of one line that have been written, columns strictly rising (10 R49). -/
abbrev PixelLine := List (Nat × BitVec 32)

/-- The frame buffer: the lines in which a pixel has been written, strictly rising (10 R49, log 6). -/
abbrev FrameBuffer := List (Nat × PixelLine)

/-- The bits of P (10 R24). -/
inductive Flag where
  | c | z | i | d | b | u | v | n
  deriving DecidableEq, Repr

/-- The CPU (10 R20 to R31). `cyclesUntilNext` is a signed 16-bit counter (10 R29), read with `toInt`. -/
structure Cpu where
  a : Byte
  x : Byte
  y : Byte
  s : Byte
  p : Byte
  pc : Addr
  cycleCount : Nat
  cyclesUntilNext : BitVec 16
  operandAddr : Addr
  isMemoryOperand : Bool
  pageCrossed : Bool
  nmiPending : Bool
  irqPending : Bool
  dmaPage : Byte
  dmaRemaining : Nat
  dmaBuffer : Byte
  deriving DecidableEq, Repr

/-- PPUCTRL (10 R41). -/
structure PpuCtrl where
  inc32 : Bool
  sprTable : Bool
  bgTable : Bool
  spr16 : Bool
  nmiEnable : Bool
  deriving DecidableEq, Repr

/-- PPUMASK (10 R42). -/
structure PpuMask where
  grayscale : Bool
  showBgLeft : Bool
  showSprLeft : Bool
  showBg : Bool
  showSpr : Bool
  emphasis : BitVec 3
  deriving DecidableEq, Repr

/-- PPUSTATUS (10 R43). -/
structure PpuStatus where
  sprOverflow : Bool
  spr0Hit : Bool
  vblank : Bool
  deriving DecidableEq, Repr

/-- One slot of the sprite pipeline: pattern low, pattern high, attribute, X-counter (10 R47). -/
structure SpriteSlot where
  lo : Byte
  hi : Byte
  attr : Byte
  x : Byte
  deriving DecidableEq, Repr

/-- The transparent slot (10 R47, 51 R323). -/
def SpriteSlot.transparent : SpriteSlot := ⟨0, 0, 0, 0xFF⟩

/-- The PPU (10 R32 to R49). The nametable byte nt[q][o] is at 1024 * q + o of `nt`. -/
structure Ppu where
  pal : Memory
  nt : Memory
  oam : Memory
  oam2 : Vector Byte 32
  oam2Count : Nat
  scanline : Int
  dot : Nat
  frame : Nat
  frameReady : Bool
  v : BitVec 15
  t : BitVec 15
  x : BitVec 3
  w : Bool
  ctrl : PpuCtrl
  mask : PpuMask
  status : PpuStatus
  oamaddr : Byte
  readBuffer : Byte
  bgPatLo : BitVec 16
  bgPatHi : BitVec 16
  bgAttrLo : BitVec 16
  bgAttrHi : BitVec 16
  latPatLo : Byte
  latPatHi : Byte
  latAttr : BitVec 2
  latTile : Byte
  slots : Vector SpriteSlot 8
  sprite0InSecondary : Bool
  sprite0InScanline : Bool
  renderingSprite0 : Bool
  frameOut : FrameBuffer
  deriving DecidableEq, Repr

/-- The mapper numbers 0 to 3 (10 R54). -/
inductive Mapper where
  | nrom | mmc1 | uxrom | cnrom
  deriving DecidableEq, Repr

/-- Nametable mirroring (10 R53). -/
inductive Mirroring where
  | singleLower | singleUpper | horizontal | vertical | fourScreen
  deriving DecidableEq, Repr

/-- The MMC1's PRG bank modes (10 R55): 32KB-switch, fix-first-half, fix-second-half. -/
inductive PrgMode where
  | switch32 | fixFirst | fixSecond
  deriving DecidableEq, Repr

/-- The MMC1's CHR bank modes (10 R55): 8KB, two-4KB. -/
inductive ChrMode where
  | full8 | two4
  deriving DecidableEq, Repr

/-- The MMC1's state (10 R55). -/
structure Mmc1 where
  shift : BitVec 5
  prgMode : PrgMode
  chrMode : ChrMode
  mirroring : Mirroring
  prgBank : BitVec 4
  chr0 : BitVec 5
  chr1 : BitVec 5
  deriving DecidableEq, Repr

/-- The MMC1's power-on and reset state (10 R55), with the header's mirroring. -/
def Mmc1.initial (header : Mirroring) : Mmc1 :=
  { shift := 0x10, prgMode := .fixSecond, chrMode := .full8, mirroring := header, prgBank := 0, chr0 := 0, chr1 := 0 }

/-- The cartridge: launch input and mapper state (10 R50 to R57). `chrBanks8` is the size of CHR memory in 8 KiB. -/
structure Cart where
  mapper : Mapper
  prgRom : Memory
  prgBanks16 : Nat
  chr : Memory
  chrBanks8 : Nat
  chrIsRam : Bool
  prgRam : Memory
  prgRamPresent : Bool
  headerMirroring : Mirroring
  mmc1 : Mmc1
  uxromBank : Byte
  cnromBank : Byte
  deriving DecidableEq, Repr

/-- The controller pair (10 R59). Button bytes: A bit 0, B 1, Select 2, Start 3, Up 4, Down 5, Left 6, Right 7. -/
structure Pads where
  localButtons : Byte
  committed1 : Byte
  committed2 : Byte
  strobe : Bool
  shift1 : Byte
  shift2 : Byte
  deriving DecidableEq, Repr

/-- What a snapshot holds (10 R63, 70 R399): every element of 10 R20 to R59. Its bytes are SNAPSHOT_FORMAT's
(Machine/SnapshotFormat.lean). -/
structure Snapshot where
  cpu : Cpu
  ppu : Ppu
  cart : Cart
  wram : Memory
  pads : Pads
  deriving DecidableEq, Repr

/-- Why a cartridge load is refused (21 R111, 60 R366). -/
inductive LoadError where
  | invalidInesHeader
  | unsupportedMapper (number : Nat)
  | io
  deriving DecidableEq, Repr

/-- What the host may ask at the top of a frame (70 R398). A restore carries bytes of SNAPSHOT_FORMAT (log 10). -/
inductive HostRequest where
  | reset
  | swap (image : List Byte)
  | restore (bytes : List Byte)
  | snapshot
  deriving DecidableEq, Repr

/-- What the host gets back (70 R398); a restore and a snapshot may report an error at their call (60 R366, log 24). -/
inductive HostReply where
  | done
  | loadFailed (error : LoadError)
  | restoreFailed
  | snapshot (bytes : List Byte)
  | snapshotFailed
  deriving DecidableEq, Repr

/-- What the host has ready for one poll: its requests in the order received, its own local buttons if it changes
them, and the buttons it delivers for both players (70 R398, log 11). -/
structure HostPoll where
  requests : List HostRequest
  localButtons : Option Byte
  buttons : Option (Byte × Byte)
  deriving DecidableEq, Repr

/-- The model's own side of the host interface (70 R396, R398; logs 1, 11, 12). -/
structure Port where
  polls : List HostPoll
  replies : List HostReply
  betweenFrames : Bool
  deriving DecidableEq, Repr

/-- The state of the machine. -/
structure State where
  cpu : Cpu
  ppu : Ppu
  cart : Cart
  wram : Memory
  pads : Pads
  port : Port
  deriving DecidableEq, Repr

/-- What stops the machine: nothing does. "No instruction, access or address raises a synchronous exception"
(60 R352), so there is no constructor, and no step can answer a fault (log 17). -/
inductive Fault where
  deriving DecidableEq, Repr

/-- What the model has no meaning for. -/
inductive Refusal where
  /-- Raised by an arm of exec whose instruction has no meaning yet; no arm of this model does. Safe: the run stops. -/
  | notModelled (mnemonic : String)
  deriving DecidableEq, Repr

/-- What a meaning and a step answer. -/
abbrev Result := Host.Outcome State Fault Refusal

/-- The CPU at power-on, with the program counter read from the vector (70 R380, R386, D7). -/
def Cpu.initial (pc : Addr) : Cpu :=
  { a := 0, x := 0, y := 0, s := 0xFD, p := 0x24, pc := pc, cycleCount := 0, cyclesUntilNext := 7,
    operandAddr := 0, isMemoryOperand := false, pageCrossed := false, nmiPending := false, irqPending := false,
    dmaPage := 0, dmaRemaining := 0, dmaBuffer := 0 }

/-- The PPU at power-on (the power-on column of 10 R32 to R49, D39). -/
def Ppu.initial : Ppu :=
  { pal := [], nt := [], oam := [], oam2 := Vector.replicate 32 0xFF, oam2Count := 0,
    scanline := -1, dot := 0, frame := 0, frameReady := false, v := 0, t := 0, x := 0, w := false,
    ctrl := ⟨false, false, false, false, false⟩, mask := ⟨false, false, false, false, false, 0⟩,
    status := ⟨false, false, false⟩, oamaddr := 0, readBuffer := 0,
    bgPatLo := 0, bgPatHi := 0, bgAttrLo := 0, bgAttrHi := 0, latPatLo := 0, latPatHi := 0, latAttr := 0, latTile := 0,
    slots := Vector.replicate 8 SpriteSlot.transparent,
    sprite0InSecondary := false, sprite0InScanline := false, renderingSprite0 := false, frameOut := [] }

/-- The cartridge State.reset holds: the smallest the spec admits, NROM with one PRG bank of zeros and CHR-RAM, no
PRG-RAM, horizontal mirroring (flags-6 = 0). DESIGN CHOICE (log 2): the image is launch input. -/
def Cart.blank : Cart :=
  { mapper := .nrom, prgRom := [], prgBanks16 := 1, chr := [], chrBanks8 := 1, chrIsRam := true, prgRam := [],
    prgRamPresent := false, headerMirroring := .horizontal, mmc1 := Mmc1.initial .horizontal, uxromBank := 0,
    cnromBank := 0 }

/-- The controllers at power-on (10 R59, D39). -/
def Pads.initial : Pads :=
  { localButtons := 0, committed1 := 0, committed2 := 0, strobe := false, shift1 := 0, shift2 := 0 }

/-- The host's side at power-on: no request queued (70 R388), the first frame not yet opened (70 R396). -/
def Port.initial : Port := { polls := [], replies := [], betweenFrames := true }

/-- The machine right after power-on (70 R380) with the blank cartridge, whose reset vector reads $0000 (log 2). -/
def State.reset : State :=
  { cpu := Cpu.initial 0, ppu := Ppu.initial, cart := Cart.blank, wram := [], pads := Pads.initial, port := Port.initial }

/-- The part of a state that a snapshot copies (70 R399). -/
def State.snapshot (s : State) : Snapshot :=
  { cpu := s.cpu, ppu := s.ppu, cart := s.cart, wram := s.wram, pads := s.pads }

end Sys2Proof.Machine
end

