-- ==== Sys2Proof/Machine/Memory.lean ====
section
/-! DEFINITION. Sparse memories in one canonical form: a list of cells, addresses strictly rising, no cell that holds
what an unlisted address reads as. -/

namespace Sys2Proof.Machine

/-- The value listed at key `a`. -/
def Assoc.get? {α : Type} : List (Nat × α) → Nat → Option α
  | [], _ => none
  | (k, v) :: m, a => if k = a then some v else Assoc.get? m a

/-- The list without key `a`. -/
def Assoc.erase {α : Type} (m : List (Nat × α)) (a : Nat) : List (Nat × α) := m.filter fun c => c.1 != a

/-- Put a cell before the first larger key. -/
def Assoc.insert {α : Type} (a : Nat) (v : α) : List (Nat × α) → List (Nat × α)
  | [] => [(a, v)]
  | (k, w) :: m => if a < k then (a, v) :: (k, w) :: m else (k, w) :: Assoc.insert a v m

/-- The list with `v` at key `a` and nothing else changed. -/
def Assoc.put {α : Type} (m : List (Nat × α)) (a : Nat) (v : α) : List (Nat × α) :=
  Assoc.insert a v (Assoc.erase m a)

/-- Keys strictly rising. -/
abbrev Assoc.sorted {α : Type} (m : List (Nat × α)) : Prop := m.Pairwise fun c d => c.1 < d.1

/-- What an unlisted address reads as: 0, the power-on contents of work RAM, PRG-RAM, CHR-RAM, palette, nametables
and OAM (10 R32 to R34, R51, R52, R58; D39). In a ROM image it stands for the image's own zero bytes. -/
def Memory.unlisted : Byte := 0

/-- The byte at an address. -/
def Memory.read (m : Memory) (a : Nat) : Byte := (Assoc.get? m a).getD Memory.unlisted

/-- The memory with `v` at address `a`. -/
def Memory.write (m : Memory) (a : Nat) (v : Byte) : Memory :=
  if v = Memory.unlisted then Assoc.erase m a else Assoc.put m a v

/-- The canonical form. -/
abbrev Memory.wf (m : Memory) : Prop := Assoc.sorted m ∧ ∀ c ∈ m, c.2 ≠ Memory.unlisted

/-- No address at or above `size` is listed. -/
abbrev Memory.below (size : Nat) (m : Memory) : Prop := ∀ c ∈ m, c.1 < size

/-- The canonical memory that holds `bytes` from address `base` on, for a ROM image (21 R111). -/
def Memory.ofBytes (base : Nat) : List Byte → Memory
  | [] => []
  | b :: bs => if b = Memory.unlisted then Memory.ofBytes (base + 1) bs else (base, b) :: Memory.ofBytes (base + 1) bs

/-- The pixel written at column `x` of line `y`, if any (10 R49). -/
def FrameBuffer.written (f : FrameBuffer) (y x : Nat) : Option (BitVec 32) :=
  (Assoc.get? f y).bind fun line => Assoc.get? line x

/-- `frame_out[y][x]` (10 R49): the pixel written, or before any write the free value (log 6). -/
def FrameBuffer.pixel (f : FrameBuffer) (y x : Nat) : BitVec 32 :=
  (FrameBuffer.written f y x).getD (Config.unwrittenPixel (256 * y + x))

/-- `frame_out[y][x] <- p` (51 R334). -/
def FrameBuffer.write (f : FrameBuffer) (y x : Nat) (p : BitVec 32) : FrameBuffer :=
  Assoc.put f y (Assoc.put ((Assoc.get? f y).getD []) x p)

/-- The frame buffer's canonical form: lines and columns strictly rising. -/
abbrev FrameBuffer.wf (f : FrameBuffer) : Prop := Assoc.sorted f ∧ ∀ l ∈ f, Assoc.sorted l.2

end Sys2Proof.Machine
end

