-- ==== Sys2Proof/Machine/Cartridge.lean ====
section
/-! DEFINITION. The cartridge's address decoding for mappers 0 to 3 (21 R110 to R135), and the iNES image (21 R111). -/

namespace Sys2Proof.Machine

/-- The PRG-RAM bank (21 R114, R126): MMC1 takes it from `mmc1_chr0[3:2]` when CHR is RAM; 0 otherwise. Four 8 KiB
banks are stored, so the 2-bit number needs no reduction (21 R116). -/
def Cart.ramBank (c : Cart) : Nat :=
  match c.mapper with
  | .mmc1 => if c.chrIsRam then (c.mmc1.chr0.extractLsb' 2 2).toNat else 0
  | .nrom | .uxrom | .cnrom => 0

/-- `ram_offset(addr)` (21 R114). -/
def Cart.ramOffset (c : Cart) (addr : Addr) : Nat := c.ramBank % 4 * 0x2000 + addr.toNat % 0x2000

/-- The 256K base, in 16 KiB banks: `16 * mmc1_chr0[4]` (21 R125, R126). -/
def Cart.mmc1Base (c : Cart) : Nat := if c.mmc1.chr0.getLsbD 4 then 16 else 0

/-- The MMC1's 16 KiB bank at an address of $8000-$FFFF, before reduction (21 R125). -/
def Cart.mmc1PrgBank (c : Cart) (addr : Addr) : Nat :=
  let p := c.mmc1.prgBank.toNat
  let lowHalf := addr.toNat < 0xC000
  match c.mmc1.prgMode with
  | .switch32 => c.mmc1Base + (p - p % 2) + (if lowHalf then 0 else 1)
  | .fixFirst => c.mmc1Base + (if lowHalf then 0 else p)
  | .fixSecond => c.mmc1Base + (if lowHalf then p else min c.prgBanks16 16 - 1)

/-- `prg_offset(addr)` for an address of $8000-$FFFF (21 R116, R117, R125, R130, R133). -/
def Cart.prgOffset (c : Cart) (addr : Addr) : Nat :=
  match c.mapper with
  | .nrom | .cnrom => (addr.toNat - 0x8000) % (Config.prgBankSize * c.prgBanks16)
  | .mmc1 => c.mmc1PrgBank addr % c.prgBanks16 * 0x4000 + addr.toNat % 0x4000
  | .uxrom =>
    let bank := if addr.toNat < 0xC000 then c.uxromBank.toNat % c.prgBanks16 else c.prgBanks16 - 1
    bank * 0x4000 + addr.toNat % 0x4000

/-- `cpu_read(addr)` (21 R112). -/
def Cart.cpuRead (c : Cart) (addr : Addr) : Byte :=
  if addr.toNat < 0x6000 then 0
  else if addr.toNat < 0x8000 then (if c.prgRamPresent then c.prgRam.read (c.ramOffset addr) else 0)
  else c.prgRom.read (c.prgOffset addr)

/-- The mirroring code of an MMC1 control commit (21 R121). -/
def mmc1Mirroring (value : BitVec 5) : Mirroring :=
  match (value.extractLsb' 0 2).toNat with
  | 0 => .singleLower
  | 1 => .singleUpper
  | 2 => .vertical
  | _ => .horizontal

/-- The PRG-mode code of an MMC1 control commit (21 R121). -/
def mmc1PrgMode (value : BitVec 5) : PrgMode :=
  match (value.extractLsb' 2 2).toNat with
  | 0 | 1 => .switch32
  | 2 => .fixFirst
  | _ => .fixSecond

/-- Commit five bits to the register that `addr[14:13]` selects (21 R120 to R124). -/
def Mmc1.commit (m : Mmc1) (addr : Addr) (value : BitVec 5) : Mmc1 :=
  match (addr.extractLsb' 13 2).toNat with
  | 0 => { m with
           mirroring := mmc1Mirroring value
           prgMode := mmc1PrgMode value
           chrMode := if value.getLsbD 4 then .two4 else .full8 }
  | 1 => { m with chr0 := value }
  | 2 => { m with chr1 := value }
  | _ => { m with prgBank := value.extractLsb' 0 4 }

/-- A write of `v` to $8000-$FFFF on MMC1: the reset write (21 R118) or one serial bit (21 R119). -/
def Mmc1.write (m : Mmc1) (addr : Addr) (v : Byte) : Mmc1 :=
  if v.getLsbD 7 then { m with shift := 0x10, prgMode := .fixSecond }
  else
    let value := (m.shift >>> 1) ||| (if v.getLsbD 0 then 0x10 else 0)
    if m.shift.getLsbD 0 then { m.commit addr value with shift := 0x10 }
    else { m with shift := value }

/-- `mapper_write(addr, v)` for an address of $8000-$FFFF (21 R117, R118, R119, R129, R132). -/
def Cart.mapperWrite (c : Cart) (addr : Addr) (v : Byte) : Cart :=
  match c.mapper with
  | .nrom => c
  | .mmc1 => { c with mmc1 := c.mmc1.write addr v }
  | .uxrom => { c with uxromBank := v }
  | .cnrom => { c with cnromBank := v }

/-- `cpu_write(addr, v)` (21 R113). -/
def Cart.cpuWrite (c : Cart) (addr : Addr) (v : Byte) : Cart :=
  if addr.toNat < 0x6000 then c
  else if addr.toNat < 0x8000 then
    (if c.prgRamPresent then { c with prgRam := c.prgRam.write (c.ramOffset addr) v } else c)
  else c.mapperWrite addr v

/-- The MMC1's 4 KiB CHR bank for `a` in $0000-$1FFF, before reduction (21 R127). -/
def Cart.mmc1ChrBank (c : Cart) (a : Nat) : Nat :=
  let c0 := c.mmc1.chr0.toNat
  match c.mmc1.chrMode with
  | .full8 => (c0 - c0 % 2) + (if a < 0x1000 then 0 else 1)
  | .two4 => if a < 0x1000 then c0 else c.mmc1.chr1.toNat

/-- `chr_offset(a)` for `a` in $0000-$1FFF (21 R116, R117, R127, R131, R133); CHR memory holds `2 * chrBanks8` banks
of 4 KiB. -/
def Cart.chrOffset (c : Cart) (a : Nat) : Nat :=
  match c.mapper with
  | .nrom | .uxrom => a
  | .mmc1 => c.mmc1ChrBank a % (2 * c.chrBanks8) * 0x1000 + a % 0x1000
  | .cnrom => c.cnromBank.toNat % c.chrBanks8 * 0x2000 + a

/-- `ppu_read(a)` for `a` in $0000-$1FFF (21 R115). -/
def Cart.ppuRead (c : Cart) (a : Nat) : Byte := c.chr.read (c.chrOffset a)

/-- `ppu_write(a, v)` for `a` in $0000-$1FFF (21 R115, D48). -/
def Cart.ppuWrite (c : Cart) (a : Nat) (v : Byte) : Cart :=
  if c.chrIsRam then { c with chr := c.chr.write (c.chrOffset a) v } else c

/-- `mirroring()` (21 R117, R128, R131, R133). -/
def Cart.mirroring (c : Cart) : Mirroring :=
  match c.mapper with
  | .mmc1 => c.mmc1.mirroring
  | .nrom | .uxrom | .cnrom => c.headerMirroring

/-- The cartridge's reset: mapper state back to its power-on default, memories kept (70 R383). -/
def Cart.reset (c : Cart) : Cart :=
  { c with mmc1 := Mmc1.initial c.headerMirroring, uxromBank := 0, cnromBank := 0 }

-- The iNES image (21 R111).

/-- The mapper of a number, for the numbers this hardware has (10 R54). -/
def mapperOfNumber (n : Nat) : Option Mapper :=
  match n with
  | 0 => some .nrom
  | 1 => some .mmc1
  | 2 => some .uxrom
  | 3 => some .cnrom
  | _ => none

/-- The header mirroring of flags-6 (21 R111, D38). -/
def headerMirroringOf (flags6 : Byte) : Mirroring :=
  if flags6.getLsbD 3 then .fourScreen else if flags6.getLsbD 0 then .vertical else .horizontal

/-- The mapper number of flags-6 and flags-7 (10 R54, 21 R111). -/
def mapperNumberOf (flags6 flags7 : Byte) : Nat := flags6.toNat / 16 + 16 * (flags7.toNat / 16)

/-- The bytes after the header, as PRG-ROM of `n` banks and CHR memory of `m` banks (10 R50, R51; 21 R111). -/
def Cart.ofBody (mapper : Mapper) (n m : Nat) (flags6 : Byte) (body : List Byte) : Cart :=
  let prgSize := Config.prgBankSize * n
  let header := headerMirroringOf flags6
  { mapper := mapper
    prgRom := Memory.ofBytes 0 (body.take prgSize)
    prgBanks16 := n
    chr := Memory.ofBytes 0 ((body.drop prgSize).take (Config.chrBankSize * m))
    chrBanks8 := if m = 0 then 1 else m
    chrIsRam := m == 0
    prgRam := []
    prgRamPresent := flags6.getLsbD 1
    headerMirroring := header
    mmc1 := Mmc1.initial header
    uxromBank := 0
    cnromBank := 0 }

/-- A cartridge from an iNES byte stream (21 R111, D46). The order of the checks on an image that is wrong in more
than one way is the model's (log 13): a file too short to hold a header, then the header, then the mapper, then the
length. -/
def Cart.ofINes (image : List Byte) : Except LoadError Cart :=
  match image with
  | b0 :: b1 :: b2 :: b3 :: n :: m :: flags6 :: flags7 :: _ :: _ :: _ :: _ :: _ :: _ :: _ :: _ :: body =>
    if [b0, b1, b2, b3] ≠ [0x4E, 0x45, 0x53, 0x1A] ∨ n = 0 ∨ flags6.getLsbD 2 = true then .error .invalidInesHeader
    else
      match mapperOfNumber (mapperNumberOf flags6 flags7) with
      | none => .error (.unsupportedMapper (mapperNumberOf flags6 flags7))
      | some mapper =>
        if body.length < Config.prgBankSize * n.toNat + Config.chrBankSize * m.toNat then .error .io
        else .ok (Cart.ofBody mapper n.toNat m.toNat flags6 body)
  | _ => .error .io

end Sys2Proof.Machine
end

