-- ==== Sys2Proof/Machine/PpuBus.lean ====
section
/-! DEFINITION. The PPU bus: pattern tables, nametables and palette (50 R280 to R283). -/

namespace Sys2Proof.Machine

/-- The physical nametable of a nametable address `n = a' & $2FFF` (50 R282). -/
def nametableOf (m : Mirroring) (n : Nat) : Nat :=
  let q := n / 1024 % 4
  match m with
  | .singleLower => 0
  | .singleUpper => 1
  | .horizontal => q / 2
  | .vertical => q % 2
  | .fourScreen => q

/-- The index in nametable RAM of `a'` in $2000-$3EFF (50 R280, R282). -/
def ntIndex (m : Mirroring) (a : Nat) : Nat :=
  let n := if a < 0x3000 then a else a - 0x1000
  1024 * nametableOf m n + n % 1024

/-- The palette entry of `a'` in $3F00-$3FFF: mirrored every 32, $10/$14/$18/$1C being $00/$04/$08/$0C (50 R283). -/
def palIndex (a : Nat) : Nat :=
  let i := a % 32
  if 16 ≤ i ∧ i % 4 = 0 then i - 16 else i

/-- `a' = a & $3FFF` (50 R280). -/
def ppuAddr (a : Addr) : Nat := a.toNat % 0x4000

/-- `PpuRead(a)` (50 R280 to R283). It has no side effect. -/
def ppuBusRead (c : Cart) (p : Ppu) (a : Addr) : Byte :=
  let a' := ppuAddr a
  if a' < 0x2000 then c.ppuRead a'
  else if a' < 0x3F00 then p.nt.read (ntIndex c.mirroring a')
  else p.pal.read (palIndex a')

/-- `PpuWrite(a, d)` (50 R280 to R283). -/
def ppuBusWrite (c : Cart) (p : Ppu) (a : Addr) (d : Byte) : Cart × Ppu :=
  let a' := ppuAddr a
  if a' < 0x2000 then (c.ppuWrite a' d, p)
  else if a' < 0x3F00 then (c, { p with nt := p.nt.write (ntIndex c.mirroring a') d })
  else (c, { p with pal := p.pal.write (palIndex a') d })

end Sys2Proof.Machine
end

