-- ==== Sys2Proof/Machine/PpuRegs.lean ====
section
/-! DEFINITION. The PPU's eight CPU-visible registers (50 R288 to R300). Registers are numbered 0 to 7 for $2000 to
$2007; the mirroring of the CPU addresses is the bus's (20 R77). -/

namespace Sys2Proof.Machine

/-- A 15-bit VRAM address as a 16-bit number. -/
def vWide (v : BitVec 15) : Addr := v.zeroExtend 16

/-- The PPU bus address that `v` designates: `v & $3FFF` (10 R37). -/
def Ppu.vAddr (p : Ppu) : Addr := vWide p.v &&& 0x3FFF

/-- `v <- (v + (32 if inc32 else 1)) & $7FFF` (50 R297, R299, R300). -/
def Ppu.advanceV (p : Ppu) : Ppu := { p with v := p.v + (if p.ctrl.inc32 then 32 else 1) }

/-- The byte of PPUSTATUS: bits 7, 6, 5 the flags, bits 4..0 zero (10 R43, 50 R291). -/
def PpuStatus.byte (s : PpuStatus) : Byte :=
  bitByte s.vblank <<< 7 ||| bitByte s.spr0Hit <<< 6 ||| bitByte s.sprOverflow <<< 5

/-- Read $2002 (50 R291). -/
def Ppu.readStatus (p : Ppu) : Byte × Ppu :=
  (p.status.byte, { p with status := { p.status with vblank := false }, w := false })

/-- Read $2004 (50 R295). -/
def Ppu.readOamData (p : Ppu) : Byte := p.oam.read p.oamaddr.toNat

/-- Read $2007 (50 R297, D20). -/
def Ppu.readData (c : Cart) (p : Ppu) : Byte × Ppu :=
  let a := p.vAddr
  if a.toNat < 0x3F00 then
    (p.readBuffer, Ppu.advanceV { p with readBuffer := ppuBusRead c p a })
  else
    (ppuBusRead c p a, Ppu.advanceV { p with readBuffer := ppuBusRead c p (a - 0x1000) })

/-- `read_register` (50 R288, R289): reads of the write-only registers return 0 (D16). -/
def Ppu.readRegister (c : Cart) (p : Ppu) (r : Nat) : Byte × Ppu :=
  match r with
  | 2 => p.readStatus
  | 4 => (p.readOamData, p)
  | 7 => Ppu.readData c p
  | _ => (0, p)

/-- Write $2000 (50 R290). -/
def Ppu.writeCtrl (p : Ppu) (d : Byte) : Ppu :=
  { p with
    ctrl := { inc32 := d.getLsbD 2, sprTable := d.getLsbD 3, bgTable := d.getLsbD 4, spr16 := d.getLsbD 5,
              nmiEnable := d.getLsbD 7 }
    t := (p.t &&& ~~~0x0C00#15) ||| ((d &&& 3).zeroExtend 15 <<< 10) }

/-- Write $2001 (50 R292). -/
def Ppu.writeMask (p : Ppu) (d : Byte) : Ppu :=
  { p with
    mask := { grayscale := d.getLsbD 0, showBgLeft := d.getLsbD 1, showSprLeft := d.getLsbD 2, showBg := d.getLsbD 3,
              showSpr := d.getLsbD 4, emphasis := d.extractLsb' 5 3 } }

/-- Write $2003 (50 R294). -/
def Ppu.writeOamAddr (p : Ppu) (d : Byte) : Ppu := { p with oamaddr := d }

/-- Write $2004 (50 R293). -/
def Ppu.writeOamData (p : Ppu) (d : Byte) : Ppu :=
  { p with oam := p.oam.write p.oamaddr.toNat d, oamaddr := p.oamaddr + 1 }

/-- Write $2005 (50 R296). -/
def Ppu.writeScroll (p : Ppu) (d : Byte) : Ppu :=
  if p.w = false then
    { p with x := d.extractLsb' 0 3, t := (p.t &&& ~~~0x001F#15) ||| (d >>> 3).zeroExtend 15, w := true }
  else
    { p with
      t := (p.t &&& ~~~0x73E0#15) ||| ((d &&& 7).zeroExtend 15 <<< 12) ||| ((d &&& 0xF8).zeroExtend 15 <<< 2)
      w := false }

/-- Write $2006 (50 R298). -/
def Ppu.writeAddr (p : Ppu) (d : Byte) : Ppu :=
  if p.w = false then
    { p with t := (p.t &&& 0x00FF) ||| ((d &&& 0x3F).zeroExtend 15 <<< 8), w := true }
  else
    let t := (p.t &&& 0x7F00) ||| d.zeroExtend 15
    { p with t := t, v := t, w := false }

/-- Write $2007 (50 R299). -/
def Ppu.writeData (c : Cart) (p : Ppu) (d : Byte) : Cart × Ppu :=
  let (c', p') := ppuBusWrite c p p.vAddr d
  (c', p'.advanceV)

/-- `write_register` (50 R288, R289): a write to $2002 is ignored (D16). -/
def Ppu.writeRegister (c : Cart) (p : Ppu) (r : Nat) (d : Byte) : Cart × Ppu :=
  match r with
  | 0 => (c, p.writeCtrl d)
  | 1 => (c, p.writeMask d)
  | 3 => (c, p.writeOamAddr d)
  | 4 => (c, p.writeOamData d)
  | 5 => (c, p.writeScroll d)
  | 6 => (c, p.writeAddr d)
  | 7 => Ppu.writeData c p d
  | _ => (c, p)

end Sys2Proof.Machine
end

