-- ==== Sys2Proof/Machine/Bus.lean ====
section
/-! DEFINITION. The memory bus arbiter and its devices (20 R70 to R83): what one CPU bus read and one CPU bus write do. -/

namespace Sys2Proof.Machine

/-- The bus devices (20 R72). -/
inductive Device where
  | wram | ppu | pads | dmaPort | cart
  deriving DecidableEq, Repr

/-- `claims(addr)` (20 R72). -/
def Device.claims (d : Device) (a : Addr) : Bool :=
  match d with
  | .wram => decide (a.toNat < 0x2000)
  | .ppu => decide (0x2000 ≤ a.toNat) && decide (a.toNat < 0x4000)
  | .pads => decide (0x4016 ≤ a.toNat) && decide (a.toNat ≤ 0x4017)
  | .dmaPort => decide (a.toNat = 0x4014)
  | .cart => decide (0x4020 ≤ a.toNat)

/-- The registration order (20 R72, D50). -/
def registrationOrder : List Device := [.wram, .ppu, .pads, .dmaPort, .cart]

/-- The first device that claims an address (20 R70, R71). -/
def deviceAt (a : Addr) : Option Device := registrationOrder.find? fun d => d.claims a

/-- Work RAM is mirrored four times (20 R76). -/
def wramIndex (a : Addr) : Nat := a.toNat % 0x0800

/-- A shift buffer read: the value, and the buffer after it (20 R80). -/
def padShift (shift : Byte) : Byte × Byte := ((shift &&& 1) ||| 0x40, (shift >>> 1) ||| 0x80)

/-- A read of $4016 or $4017 (20 R80). -/
def Pads.read (p : Pads) (a : Addr) : Byte × Pads :=
  if a = 0x4016 then ((padShift p.shift1).1, { p with shift1 := (padShift p.shift1).2 })
  else ((padShift p.shift2).1, { p with shift2 := (padShift p.shift2).2 })

/-- A write of $4016 (20 R79) or $4017 (20 R81: no effect). -/
def Pads.write (p : Pads) (a : Addr) (v : Byte) : Pads :=
  if a = 0x4016 then
    let new := v.getLsbD 0
    if p.strobe = true ∧ new = false then
      { p with shift1 := p.committed1, shift2 := p.committed2, strobe := new }
    else { p with strobe := new }
  else p

/-- DMA start: a write of $4014 (20 R83). -/
def Cpu.startDma (c : Cpu) (v : Byte) : Cpu :=
  { c with dmaPage := v, dmaRemaining := if c.cycleCount % 2 = 0 then 513 else 514 }

/-- `MemRead(addr, 1)` (20 R70): the byte, and the state after the read's side effects. -/
def memRead (s : State) (a : Addr) : Byte × State :=
  match deviceAt a with
  | some .wram => (s.wram.read (wramIndex a), s)
  | some .ppu =>
    let r := Ppu.readRegister s.cart s.ppu (a.toNat % 8)
    (r.1, { s with ppu := r.2 })
  | some .pads =>
    let r := s.pads.read a
    (r.1, { s with pads := r.2 })
  | some .dmaPort => (0, s)
  | some .cart => (s.cart.cpuRead a, s)
  | none => (0, s)

/-- `MemWrite(addr, 1, v)` (20 R71). -/
def memWrite (s : State) (a : Addr) (v : Byte) : State :=
  match deviceAt a with
  | some .wram => { s with wram := s.wram.write (wramIndex a) v }
  | some .ppu =>
    let r := Ppu.writeRegister s.cart s.ppu (a.toNat % 8) v
    { s with cart := r.1, ppu := r.2 }
  | some .pads => { s with pads := s.pads.write a v }
  | some .dmaPort => { s with cpu := s.cpu.startDma v }
  | some .cart => { s with cart := s.cart.cpuWrite a v }
  | none => s

/-- The byte a read of `a` would return, nothing being read: no side effect. It is what statements about memory
look at, and how the byte after an unofficial immediate NOP is seen without being read (log 5). -/
def peek (s : State) (a : Addr) : Byte := (memRead s a).1

/-- The addresses a read of which has a side effect (20 R89). -/
def readHasSideEffect (a : Addr) : Bool :=
  (decide (0x2000 ≤ a.toNat) && decide (a.toNat < 0x4000) && (a.toNat % 8 == 2 || a.toNat % 8 == 7))
    || decide (a = 0x4016) || decide (a = 0x4017)

end Sys2Proof.Machine
end

