-- ==== Sys2Proof/Machine/Flags.lean ====
section
/-! DEFINITION. The bits of P and every flag computation the spec gives (10 R24, 00 R11, files 42 and 43). -/

namespace Sys2Proof.Machine

/-- The bit of P that holds a flag (10 R24). -/
def Flag.bit : Flag → Nat
  | .c => 0
  | .z => 1
  | .i => 2
  | .d => 3
  | .b => 4
  | .u => 5
  | .v => 6
  | .n => 7

/-- The byte with only a flag's bit set. -/
def Flag.mask (f : Flag) : Byte := (1 : Byte) <<< f.bit

/-- A flag of a P byte. -/
def flagOf (p : Byte) (f : Flag) : Bool := p.getLsbD f.bit

/-- A P byte with one flag set to a value. -/
def withFlag (p : Byte) (f : Flag) (on : Bool) : Byte := if on then p ||| f.mask else p &&& ~~~f.mask

/-- `setZN(v)`: `P.Z <- (v == 0); P.N <- v[7]` (00 R11). -/
def withZN (p : Byte) (v : Byte) : Byte := withFlag (withFlag p .z (v == 0)) .n (bit7 v)

/-- The copy of P that PHP and BRK push: B and bit 5 set (45 R241, 44 R228). -/
def pushedP (p : Byte) : Byte := p ||| 0x30

/-- The copy of P that NMI entry pushes: B clear, bit 5 set (60 R350). -/
def pushedPNmi (p : Byte) : Byte := (p &&& ~~~0x10#8) ||| 0x20

/-- P after a pull: B and bit 5 keep their current values (45 R243, 44 R229). -/
def pulledP (current pulled : Byte) : Byte := (pulled &&& 0xCF) ||| (current &&& 0x30)

/-- The carry as a number, 0 or 1. -/
def carryNat (c : Bool) : Nat := if c then 1 else 0

/-- `s <- A + m + C` (42 R201): 0..511. -/
def adcSum (a m : Byte) (c : Bool) : Nat := a.toNat + m.toNat + carryNat c

/-- ADC's result, `s mod 256` (42 R201). -/
def adcResult (a m : Byte) (c : Bool) : Byte := BitVec.ofNat 8 (adcSum a m c)

/-- ADC's carry, `s > 255` (42 R201). -/
def adcCarry (a m : Byte) (c : Bool) : Bool := decide (255 < adcSum a m c)

/-- ADC's overflow, `(A[7] = m[7]) and (A[7] != s[7])` (42 R201). -/
def adcOverflow (a m : Byte) (c : Bool) : Bool := bit7 a == bit7 m && bit7 a != bit7 (adcResult a m c)

/-- `d <- A - m - (1 - C)` (42 R202): -256..255. -/
def sbcDiff (a m : Byte) (c : Bool) : Int := (a.toNat : Int) - m.toNat - (1 - carryNat c)

/-- SBC's result, `d mod 256` (42 R202). -/
def sbcResult (a m : Byte) (c : Bool) : Byte := BitVec.ofInt 8 (sbcDiff a m c)

/-- SBC's carry, `d >= 0` (42 R202). -/
def sbcCarry (a m : Byte) (c : Bool) : Bool := decide (0 ≤ sbcDiff a m c)

/-- SBC's overflow, `(A[7] != m[7]) and (r[7] != A[7])` (42 R202). -/
def sbcOverflow (a m : Byte) (c : Bool) : Bool := bit7 a != bit7 m && bit7 (sbcResult a m c) != bit7 a

/-- P after ADC (42 R201). -/
def adcP (p a m : Byte) : Byte :=
  let c := flagOf p .c
  withZN (withFlag (withFlag p .v (adcOverflow a m c)) .c (adcCarry a m c)) (adcResult a m c)

/-- P after SBC (42 R202). -/
def sbcP (p a m : Byte) : Byte :=
  let c := flagOf p .c
  withZN (withFlag (withFlag p .v (sbcOverflow a m c)) .c (sbcCarry a m c)) (sbcResult a m c)

/-- P after a compare of `r` with `m`: C, Z, N (42 R203). -/
def cmpP (p r m : Byte) : Byte :=
  withFlag (withFlag (withFlag p .c (decide (m.toNat ≤ r.toNat))) .z (r == m)) .n (bit7 (r - m))

/-- P after BIT: Z, V, N (43 R223). -/
def bitP (p a m : Byte) : Byte :=
  withFlag (withFlag (withFlag p .z (a &&& m == 0)) .v (m.getLsbD 6)) .n (m.getLsbD 7)

/-- P after a shift or rotate that shifts out `c` and gives `r` (43 R215, R219 to R222). -/
def shiftP (p : Byte) (c : Bool) (r : Byte) : Byte := withZN (withFlag p .c c) r

/-- ASL's result (43 R219). -/
def aslResult (m : Byte) : Byte := m <<< 1

/-- LSR's result (43 R220). -/
def lsrResult (m : Byte) : Byte := m >>> 1

/-- ROL's result: the old C enters bit 0 (43 R221). -/
def rolResult (m : Byte) (c : Bool) : Byte := (m <<< 1) ||| bitByte c

/-- ROR's result: the old C enters bit 7 (43 R222). -/
def rorResult (m : Byte) (c : Bool) : Byte := (m >>> 1) ||| (bitByte c <<< 7)

end Sys2Proof.Machine
end

