-- ==== Sys2Proof/Machine/Ops.lean ====
section
/-! DEFINITION. The named operations over registers and memory that the meanings share: register writes, 16-bit reads,
the stack (40 R166), interrupt entry and return (60 R350, 44 R228, R229), the cycle charge (40 R161). -/

namespace Sys2Proof.Machine

/-- `A <- v` (00 R11). -/
def State.setA (s : State) (v : Byte) : State := { s with cpu := { s.cpu with a := v } }

/-- `X <- v` (00 R11). -/
def State.setX (s : State) (v : Byte) : State := { s with cpu := { s.cpu with x := v } }

/-- `Y <- v` (00 R11). -/
def State.setY (s : State) (v : Byte) : State := { s with cpu := { s.cpu with y := v } }

/-- `S <- v` (00 R11). -/
def State.setS (s : State) (v : Byte) : State := { s with cpu := { s.cpu with s := v } }

/-- `P <- v` (00 R11). -/
def State.setP (s : State) (v : Byte) : State := { s with cpu := { s.cpu with p := v } }

/-- `PC <- w` (00 R11). -/
def State.setPc (s : State) (w : Addr) : State := { s with cpu := { s.cpu with pc := w } }

/-- The latent operand state (10 R30). -/
def State.setLatent (s : State) (addr : Addr) (memory crossed : Bool) : State :=
  { s with cpu := { s.cpu with operandAddr := addr, isMemoryOperand := memory, pageCrossed := crossed } }

/-- `cycles_until_next <- n` (40 R161). -/
def State.setCycles (s : State) (n : Nat) : State := { s with cpu := { s.cpu with cyclesUntilNext := BitVec.ofNat 16 n } }

/-- A flag of the machine's P. -/
def State.flag (s : State) (f : Flag) : Bool := flagOf s.cpu.p f

/-- One flag written. -/
def State.setFlag (s : State) (f : Flag) (on : Bool) : State := s.setP (withFlag s.cpu.p f on)

/-- `setZN(v)` (00 R11). -/
def State.setZN (s : State) (v : Byte) : State := s.setP (withZN s.cpu.p v)

/-- `PC <- (PC + n) mod 2^16` (10 R26). -/
def State.advancePc (s : State) (n : Nat) : State := s.setPc (s.cpu.pc + BitVec.ofNat 16 n)

/-- Two bus reads, at `l` and then at `h`, as one little-endian word (20 R87, R88). -/
def readPair (s : State) (l h : Addr) : Addr × State :=
  let r1 := memRead s l
  let r2 := memRead r1.2 h
  (w16 r2.1 r1.1, r2.2)

/-- `read16(a)` (00 R11). -/
def read16 (s : State) (a : Addr) : Addr × State := readPair s a (a + 1)

/-- The stack byte S designates: $0100 | S (40 R166). -/
def stackAddr (sp : Byte) : Addr := w16 0x01 sp

/-- `push(v)` (40 R166). -/
def push (s : State) (v : Byte) : State :=
  let t := memWrite s (stackAddr s.cpu.s) v
  t.setS (t.cpu.s - 1)

/-- `pull()` (40 R166). -/
def pull (s : State) : Byte × State :=
  let t := s.setS (s.cpu.s + 1)
  memRead t (stackAddr t.cpu.s)

/-- `push16(w)`: high byte first (40 R166). -/
def push16 (s : State) (w : Addr) : State := push (push s (hi w)) (lo w)

/-- `pull16()`: low byte first (40 R166). -/
def pull16 (s : State) : Addr × State :=
  let r1 := pull s
  let r2 := pull r1.2
  (w16 r2.1 r1.1, r2.2)

/-- The vectors (60 R355). -/
def nmiVector : Addr := 0xFFFA

/-- The reset vector (60 R355). -/
def resetVector : Addr := 0xFFFC

/-- The BRK vector (60 R355). -/
def brkVector : Addr := 0xFFFE

/-- Taking an interrupt, the part that NMI entry (60 R350) and BRK (44 R228) have in common: push a return address
and a copy of P, set I, and continue at the vector. -/
def enterInterrupt (s : State) (returnAddr : Addr) (pCopy : Byte) (vector : Addr) : State :=
  let s1 := push (push16 s returnAddr) pCopy
  let s2 := s1.setFlag .i true
  let r := read16 s2 vector
  r.2.setPc r.1

/-- Returning from one (44 R229, 60 R358): pull P, keeping B and bit 5, then pull PC. -/
def returnFromInterrupt (s : State) : State :=
  let r := pull s
  let s1 := r.2.setP (pulledP r.2.cpu.p r.1)
  let q := pull16 s1
  q.2.setPc q.1

/-- `nmi_entry()` (60 R350). -/
def nmiEntry (s : State) : State :=
  let t := enterInterrupt s s.cpu.pc (pushedPNmi s.cpu.p) nmiVector
  { t with cpu := { t.cpu with cyclesUntilNext := 7, nmiPending := false } }

/-- `page_penalty(pclass)` (40 R182). -/
def pagePenalty (c : Penalty) (s : State) : Nat :=
  match c with
  | .page => if s.cpu.pageCrossed then 1 else 0
  | .none | .branch => 0

/-- `cycles_until_next <- base + page_penalty + extra` (40 R161). -/
def charge (base : Nat) (c : Penalty) (extra : Nat) (s : State) : State :=
  s.setCycles (base + pagePenalty c s + extra)

end Sys2Proof.Machine
end

