-- ==== Sys2Proof/Machine/Operands.lean ====
section
/-! DEFINITION. The addressing modes (40 R167 to R179) and the operand helpers `load` and `store` (40 R180, R181).

When an instruction's meaning runs, its opcode and operand bytes have been fetched and PC is the address of the next
instruction (40 R162): the bytes are in the Operand. What is left of `resolve` is the effective address, with the
pointer reads. An immediate's single read (40 R180) is the fetch of its byte (log 4). -/

namespace Sys2Proof.Machine

/-- `hi(base) != hi(operand_addr)` (40 R174, R178, R179). -/
def crosses (base ea : Addr) : Bool := hi base != hi ea

/-- `(aa + index) mod 256` in page 0 (40 R171, R172, R177). -/
def zeroPageSum (a index : Byte) : Addr := zext16 (a + index)

/-- A pointer in page 0, its second byte wrapping within the page (40 R177, R178, D42). -/
def readZeroPagePointer (s : State) (p : Byte) : Addr × State := readPair s (zext16 p) (zext16 (p + 1))

/-- The address of an indirect pointer's high byte, with the page-wrap bug (40 R176). -/
def indirectHighAddr (p : Addr) : Addr := (p &&& 0xFF00) ||| ((p + 1) &&& 0x00FF)

/-- The effective address indexed by a register, with the page-cross test (40 R174, R175, R178). -/
def setIndexed (s : State) (base : Addr) (index : Byte) : State :=
  s.setLatent (base + zext16 index) true (crosses base (base + zext16 index))

/-- `resolve(mode)` (40 R163, R167 to R179). -/
def resolve (o : Operand) (s : State) : State :=
  match o with
  | .imp | .acc | .imp1 => s.setLatent 0 false false
  | .imm _ => s.setLatent (s.cpu.pc - 1) true false
  | .zp a => s.setLatent (zext16 a) true false
  | .zpX a => s.setLatent (zeroPageSum a s.cpu.x) true false
  | .zpY a => s.setLatent (zeroPageSum a s.cpu.y) true false
  | .abs w => s.setLatent w true false
  | .absX w => setIndexed s w s.cpu.x
  | .absY w => setIndexed s w s.cpu.y
  | .ind p =>
    let r := readPair s p (indirectHighAddr p)
    r.2.setLatent r.1 true false
  | .indX a =>
    let r := readZeroPagePointer s (a + s.cpu.x)
    r.2.setLatent r.1 true false
  | .indY a =>
    let r := readZeroPagePointer s a
    setIndexed r.2 r.1 r.2.cpu.y
  | .rel o =>
    let target := s.cpu.pc + sext16 o
    s.setLatent target true (crosses s.cpu.pc target)

/-- `load()` (40 R180): A in accumulator mode, the byte fetched in immediate mode, else one bus read; in an implied
mode 0 without a read. -/
def load (o : Operand) (s : State) : Byte × State :=
  match o with
  | .acc => (s.cpu.a, s)
  | .imm v => (v, s)
  | .imp | .imp1 => (0, s)
  | .zp _ | .zpX _ | .zpY _ | .abs _ | .absX _ | .absY _ | .ind _ | .indX _ | .indY _ | .rel _ =>
    memRead s s.cpu.operandAddr

/-- `store(v)` (40 R181): to A in accumulator mode, else one bus write. -/
def store (o : Operand) (v : Byte) (s : State) : State :=
  match o with
  | .acc => s.setA v
  | .imp | .imp1 | .imm _ | .zp _ | .zpX _ | .zpY _ | .abs _ | .absX _ | .absY _ | .ind _ | .indX _ | .indY _
  | .rel _ => memWrite s s.cpu.operandAddr v

/-- `execute_instruction()` after the fetch (40 R161): resolve, perform, charge the base count and the page penalty. -/
def run (o : Operand) (base : Nat) (c : Penalty) (perform : Operand → State → State) (s : State) : Result :=
  .next (charge base c 0 (perform o (resolve o s)))

/-- A branch (44 R231): taken, PC becomes the target, at 1 more cycle, and 1 more again across a page. -/
def runBranch (o : Byte) (taken : State → Bool) (s : State) : Result :=
  let t := resolve (.rel o) s
  if taken t then .next (charge 2 .branch (1 + (if t.cpu.pageCrossed then 1 else 0)) (t.setPc t.cpu.operandAddr))
  else .next (charge 2 .branch 0 t)

end Sys2Proof.Machine
end

