-- ==== Sys2Proof/Machine/Arithmetic.lean ====
section
/-! DEFINITION. Arithmetic, compare, increment and decrement (42 R200 to R211). -/

namespace Sys2Proof.Machine

-- What each mnemonic performs (40 R185).

/-- ADC of a byte to A (42 R201), which RRA shares. -/
def adcByte (m : Byte) (s : State) : State :=
  (s.setA (adcResult s.cpu.a m (s.flag .c))).setP (adcP s.cpu.p s.cpu.a m)

/-- SBC of a byte from A (42 R202), which ISC and *SBC share. -/
def sbcByte (m : Byte) (s : State) : State :=
  (s.setA (sbcResult s.cpu.a m (s.flag .c))).setP (sbcP s.cpu.p s.cpu.a m)

/-- CMP of A with a byte (42 R203), which DCP shares. -/
def cmpByte (m : Byte) (s : State) : State := s.setP (cmpP s.cpu.p s.cpu.a m)

/-- ADC (42 R201). -/
def adc (o : Operand) (s : State) : State :=
  let r := load o s
  adcByte r.1 r.2

/-- SBC (42 R202). -/
def sbc (o : Operand) (s : State) : State :=
  let r := load o s
  sbcByte r.1 r.2

/-- CMP (42 R203). -/
def cmp (o : Operand) (s : State) : State :=
  let r := load o s
  cmpByte r.1 r.2

/-- CPX (42 R204). -/
def cpx (o : Operand) (s : State) : State :=
  let r := load o s
  r.2.setP (cmpP r.2.cpu.p r.2.cpu.x r.1)

/-- CPY (42 R205). -/
def cpy (o : Operand) (s : State) : State :=
  let r := load o s
  r.2.setP (cmpP r.2.cpu.p r.2.cpu.y r.1)

/-- INC (42 R206). -/
def inc (o : Operand) (s : State) : State :=
  let r := load o s
  (store o (r.1 + 1) r.2).setZN (r.1 + 1)

/-- DEC (42 R207). -/
def dec (o : Operand) (s : State) : State :=
  let r := load o s
  (store o (r.1 - 1) r.2).setZN (r.1 - 1)

/-- INX (42 R208). -/
def inx (_ : Operand) (s : State) : State := (s.setX (s.cpu.x + 1)).setZN (s.cpu.x + 1)

/-- DEX (42 R209). -/
def dex (_ : Operand) (s : State) : State := (s.setX (s.cpu.x - 1)).setZN (s.cpu.x - 1)

/-- INY (42 R210). -/
def iny (_ : Operand) (s : State) : State := (s.setY (s.cpu.y + 1)).setZN (s.cpu.y + 1)

/-- DEY (42 R211). -/
def dey (_ : Operand) (s : State) : State := (s.setY (s.cpu.y - 1)).setZN (s.cpu.y - 1)

-- The meanings, one for each opcode (30 R146).

/-- ADC (nn,X), $61 (R201). -/
def execAdcIndX (a : Byte) (s : State) : Result := run (.indX a) 6 .none adc s

/-- ADC nn, $65 (R201). -/
def execAdcZp (a : Byte) (s : State) : Result := run (.zp a) 3 .none adc s

/-- ADC #nn, $69 (R201). -/
def execAdcImm (v : Byte) (s : State) : Result := run (.imm v) 2 .none adc s

/-- ADC nnnn, $6D (R201). -/
def execAdcAbs (w : Addr) (s : State) : Result := run (.abs w) 4 .none adc s

/-- ADC (nn),Y, $71 (R201). -/
def execAdcIndY (a : Byte) (s : State) : Result := run (.indY a) 5 .page adc s

/-- ADC nn,X, $75 (R201). -/
def execAdcZpX (a : Byte) (s : State) : Result := run (.zpX a) 4 .none adc s

/-- ADC nnnn,Y, $79 (R201). -/
def execAdcAbsY (w : Addr) (s : State) : Result := run (.absY w) 4 .page adc s

/-- ADC nnnn,X, $7D (R201). -/
def execAdcAbsX (w : Addr) (s : State) : Result := run (.absX w) 4 .page adc s

/-- SBC (nn,X), $E1 (R202). -/
def execSbcIndX (a : Byte) (s : State) : Result := run (.indX a) 6 .none sbc s

/-- SBC nn, $E5 (R202). -/
def execSbcZp (a : Byte) (s : State) : Result := run (.zp a) 3 .none sbc s

/-- SBC #nn, $E9 (R202). -/
def execSbcImm (v : Byte) (s : State) : Result := run (.imm v) 2 .none sbc s

/-- SBC nnnn, $ED (R202). -/
def execSbcAbs (w : Addr) (s : State) : Result := run (.abs w) 4 .none sbc s

/-- SBC (nn),Y, $F1 (R202). -/
def execSbcIndY (a : Byte) (s : State) : Result := run (.indY a) 5 .page sbc s

/-- SBC nn,X, $F5 (R202). -/
def execSbcZpX (a : Byte) (s : State) : Result := run (.zpX a) 4 .none sbc s

/-- SBC nnnn,Y, $F9 (R202). -/
def execSbcAbsY (w : Addr) (s : State) : Result := run (.absY w) 4 .page sbc s

/-- SBC nnnn,X, $FD (R202). -/
def execSbcAbsX (w : Addr) (s : State) : Result := run (.absX w) 4 .page sbc s

/-- CMP (nn,X), $C1 (R203). -/
def execCmpIndX (a : Byte) (s : State) : Result := run (.indX a) 6 .none cmp s

/-- CMP nn, $C5 (R203). -/
def execCmpZp (a : Byte) (s : State) : Result := run (.zp a) 3 .none cmp s

/-- CMP #nn, $C9 (R203). -/
def execCmpImm (v : Byte) (s : State) : Result := run (.imm v) 2 .none cmp s

/-- CMP nnnn, $CD (R203). -/
def execCmpAbs (w : Addr) (s : State) : Result := run (.abs w) 4 .none cmp s

/-- CMP (nn),Y, $D1 (R203). -/
def execCmpIndY (a : Byte) (s : State) : Result := run (.indY a) 5 .page cmp s

/-- CMP nn,X, $D5 (R203). -/
def execCmpZpX (a : Byte) (s : State) : Result := run (.zpX a) 4 .none cmp s

/-- CMP nnnn,Y, $D9 (R203). -/
def execCmpAbsY (w : Addr) (s : State) : Result := run (.absY w) 4 .page cmp s

/-- CMP nnnn,X, $DD (R203). -/
def execCmpAbsX (w : Addr) (s : State) : Result := run (.absX w) 4 .page cmp s

/-- CPX #nn, $E0 (R204). -/
def execCpxImm (v : Byte) (s : State) : Result := run (.imm v) 2 .none cpx s

/-- CPX nn, $E4 (R204). -/
def execCpxZp (a : Byte) (s : State) : Result := run (.zp a) 3 .none cpx s

/-- CPX nnnn, $EC (R204). -/
def execCpxAbs (w : Addr) (s : State) : Result := run (.abs w) 4 .none cpx s

/-- CPY #nn, $C0 (R205). -/
def execCpyImm (v : Byte) (s : State) : Result := run (.imm v) 2 .none cpy s

/-- CPY nn, $C4 (R205). -/
def execCpyZp (a : Byte) (s : State) : Result := run (.zp a) 3 .none cpy s

/-- CPY nnnn, $CC (R205). -/
def execCpyAbs (w : Addr) (s : State) : Result := run (.abs w) 4 .none cpy s

/-- INC nn, $E6 (R206). -/
def execIncZp (a : Byte) (s : State) : Result := run (.zp a) 5 .none inc s

/-- INC nnnn, $EE (R206). -/
def execIncAbs (w : Addr) (s : State) : Result := run (.abs w) 6 .none inc s

/-- INC nn,X, $F6 (R206). -/
def execIncZpX (a : Byte) (s : State) : Result := run (.zpX a) 6 .none inc s

/-- INC nnnn,X, $FE (R206). -/
def execIncAbsX (w : Addr) (s : State) : Result := run (.absX w) 7 .none inc s

/-- DEC nn, $C6 (R207). -/
def execDecZp (a : Byte) (s : State) : Result := run (.zp a) 5 .none dec s

/-- DEC nnnn, $CE (R207). -/
def execDecAbs (w : Addr) (s : State) : Result := run (.abs w) 6 .none dec s

/-- DEC nn,X, $D6 (R207). -/
def execDecZpX (a : Byte) (s : State) : Result := run (.zpX a) 6 .none dec s

/-- DEC nnnn,X, $DE (R207). -/
def execDecAbsX (w : Addr) (s : State) : Result := run (.absX w) 7 .none dec s

/-- INX, $E8 (R208). -/
def execInx (s : State) : Result := run .imp 2 .none inx s

/-- DEX, $CA (R209). -/
def execDex (s : State) : Result := run .imp 2 .none dex s

/-- INY, $C8 (R210). -/
def execIny (s : State) : Result := run .imp 2 .none iny s

/-- DEY, $88 (R211). -/
def execDey (s : State) : Result := run .imp 2 .none dey s

end Sys2Proof.Machine
end

