-- ==== Sys2Proof/Machine/Control.lean ====
section
/-! DEFINITION. Jumps, subroutines, BRK, RTI and branches (44 R225 to R239). -/

namespace Sys2Proof.Machine

-- What each mnemonic performs (40 R185).

/-- JMP (44 R226). -/
def jmp (_ : Operand) (s : State) : State := s.setPc s.cpu.operandAddr

/-- JSR (44 R227): the address of its last byte is pushed. -/
def jsr (_ : Operand) (s : State) : State :=
  let t := push16 s (s.cpu.pc - 1)
  t.setPc t.cpu.operandAddr

/-- BRK (44 R228): PC after the opcode fetch, plus 1, is pushed (D58). -/
def brk (_ : Operand) (s : State) : State := enterInterrupt s (s.cpu.pc + 1) (pushedP s.cpu.p) brkVector

/-- RTI (44 R229). -/
def rti (_ : Operand) (s : State) : State := returnFromInterrupt s

/-- RTS (44 R230). -/
def rts (_ : Operand) (s : State) : State :=
  let r := pull16 s
  r.2.setPc (r.1 + 1)

-- The meanings, one for each opcode (30 R146).

/-- JMP nnnn, $4C (R226). -/
def execJmpAbs (w : Addr) (s : State) : Result := run (.abs w) 3 .none jmp s

/-- JMP (nnnn), $6C (R226). -/
def execJmpInd (w : Addr) (s : State) : Result := run (.ind w) 5 .none jmp s

/-- JSR nnnn, $20 (R227). -/
def execJsrAbs (w : Addr) (s : State) : Result := run (.abs w) 6 .none jsr s

/-- BRK, $00 (R228). -/
def execBrk (s : State) : Result := run .imp 7 .none brk s

/-- RTI, $40 (R229). -/
def execRti (s : State) : Result := run .imp 6 .none rti s

/-- RTS, $60 (R230). -/
def execRts (s : State) : Result := run .imp 6 .none rts s

/-- BPL rel, $10 (R232). -/
def execBpl (o : Byte) (s : State) : Result := runBranch o (fun t => !t.flag .n) s

/-- BMI rel, $30 (R233). -/
def execBmi (o : Byte) (s : State) : Result := runBranch o (fun t => t.flag .n) s

/-- BVC rel, $50 (R234). -/
def execBvc (o : Byte) (s : State) : Result := runBranch o (fun t => !t.flag .v) s

/-- BVS rel, $70 (R235). -/
def execBvs (o : Byte) (s : State) : Result := runBranch o (fun t => t.flag .v) s

/-- BCC rel, $90 (R236). -/
def execBcc (o : Byte) (s : State) : Result := runBranch o (fun t => !t.flag .c) s

/-- BCS rel, $B0 (R237). -/
def execBcs (o : Byte) (s : State) : Result := runBranch o (fun t => t.flag .c) s

/-- BNE rel, $D0 (R238). -/
def execBne (o : Byte) (s : State) : Result := runBranch o (fun t => !t.flag .z) s

/-- BEQ rel, $F0 (R239). -/
def execBeq (o : Byte) (s : State) : Result := runBranch o (fun t => t.flag .z) s

end Sys2Proof.Machine
end

