-- ==== Sys2Proof/Machine/LoadStore.lean ====
section
/-! DEFINITION. Load and store instructions (41 R190 to R196). -/

namespace Sys2Proof.Machine

-- What each mnemonic performs (40 R185).

/-- LDA (41 R191). -/
def lda (o : Operand) (s : State) : State :=
  let r := load o s
  (r.2.setA r.1).setZN r.1

/-- LDX (41 R192). -/
def ldx (o : Operand) (s : State) : State :=
  let r := load o s
  (r.2.setX r.1).setZN r.1

/-- LDY (41 R193). -/
def ldy (o : Operand) (s : State) : State :=
  let r := load o s
  (r.2.setY r.1).setZN r.1

/-- STA (41 R194): no read of the target, no flag. -/
def sta (o : Operand) (s : State) : State := store o s.cpu.a s

/-- STX (41 R195). -/
def stx (o : Operand) (s : State) : State := store o s.cpu.x s

/-- STY (41 R196). -/
def sty (o : Operand) (s : State) : State := store o s.cpu.y s

-- The meanings, one for each opcode (30 R146).

/-- LDA (nn,X), $A1 (R191). -/
def execLdaIndX (a : Byte) (s : State) : Result := run (.indX a) 6 .none lda s

/-- LDA nn, $A5 (R191). -/
def execLdaZp (a : Byte) (s : State) : Result := run (.zp a) 3 .none lda s

/-- LDA #nn, $A9 (R191). -/
def execLdaImm (v : Byte) (s : State) : Result := run (.imm v) 2 .none lda s

/-- LDA nnnn, $AD (R191). -/
def execLdaAbs (w : Addr) (s : State) : Result := run (.abs w) 4 .none lda s

/-- LDA (nn),Y, $B1 (R191). -/
def execLdaIndY (a : Byte) (s : State) : Result := run (.indY a) 5 .page lda s

/-- LDA nn,X, $B5 (R191). -/
def execLdaZpX (a : Byte) (s : State) : Result := run (.zpX a) 4 .none lda s

/-- LDA nnnn,Y, $B9 (R191). -/
def execLdaAbsY (w : Addr) (s : State) : Result := run (.absY w) 4 .page lda s

/-- LDA nnnn,X, $BD (R191). -/
def execLdaAbsX (w : Addr) (s : State) : Result := run (.absX w) 4 .page lda s

/-- LDX #nn, $A2 (R192). -/
def execLdxImm (v : Byte) (s : State) : Result := run (.imm v) 2 .none ldx s

/-- LDX nn, $A6 (R192). -/
def execLdxZp (a : Byte) (s : State) : Result := run (.zp a) 3 .none ldx s

/-- LDX nnnn, $AE (R192). -/
def execLdxAbs (w : Addr) (s : State) : Result := run (.abs w) 4 .none ldx s

/-- LDX nn,Y, $B6 (R192). -/
def execLdxZpY (a : Byte) (s : State) : Result := run (.zpY a) 4 .none ldx s

/-- LDX nnnn,Y, $BE (R192). -/
def execLdxAbsY (w : Addr) (s : State) : Result := run (.absY w) 4 .page ldx s

/-- LDY #nn, $A0 (R193). -/
def execLdyImm (v : Byte) (s : State) : Result := run (.imm v) 2 .none ldy s

/-- LDY nn, $A4 (R193). -/
def execLdyZp (a : Byte) (s : State) : Result := run (.zp a) 3 .none ldy s

/-- LDY nnnn, $AC (R193). -/
def execLdyAbs (w : Addr) (s : State) : Result := run (.abs w) 4 .none ldy s

/-- LDY nn,X, $B4 (R193). -/
def execLdyZpX (a : Byte) (s : State) : Result := run (.zpX a) 4 .none ldy s

/-- LDY nnnn,X, $BC (R193). -/
def execLdyAbsX (w : Addr) (s : State) : Result := run (.absX w) 4 .page ldy s

/-- STA (nn,X), $81 (R194). -/
def execStaIndX (a : Byte) (s : State) : Result := run (.indX a) 6 .none sta s

/-- STA nn, $85 (R194). -/
def execStaZp (a : Byte) (s : State) : Result := run (.zp a) 3 .none sta s

/-- STA nnnn, $8D (R194). -/
def execStaAbs (w : Addr) (s : State) : Result := run (.abs w) 4 .none sta s

/-- STA (nn),Y, $91 (R194). -/
def execStaIndY (a : Byte) (s : State) : Result := run (.indY a) 6 .none sta s

/-- STA nn,X, $95 (R194). -/
def execStaZpX (a : Byte) (s : State) : Result := run (.zpX a) 4 .none sta s

/-- STA nnnn,Y, $99 (R194). -/
def execStaAbsY (w : Addr) (s : State) : Result := run (.absY w) 5 .none sta s

/-- STA nnnn,X, $9D (R194). -/
def execStaAbsX (w : Addr) (s : State) : Result := run (.absX w) 5 .none sta s

/-- STX nn, $86 (R195). -/
def execStxZp (a : Byte) (s : State) : Result := run (.zp a) 3 .none stx s

/-- STX nnnn, $8E (R195). -/
def execStxAbs (w : Addr) (s : State) : Result := run (.abs w) 4 .none stx s

/-- STX nn,Y, $96 (R195). -/
def execStxZpY (a : Byte) (s : State) : Result := run (.zpY a) 4 .none stx s

/-- STY nn, $84 (R196). -/
def execStyZp (a : Byte) (s : State) : Result := run (.zp a) 3 .none sty s

/-- STY nnnn, $8C (R196). -/
def execStyAbs (w : Addr) (s : State) : Result := run (.abs w) 4 .none sty s

/-- STY nn,X, $94 (R196). -/
def execStyZpX (a : Byte) (s : State) : Result := run (.zpX a) 4 .none sty s

end Sys2Proof.Machine
end

