-- ==== Sys2Proof/Machine/Logic.lean ====
section
/-! DEFINITION. Logic, shift, rotate and bit test (43 R215 to R223). -/

namespace Sys2Proof.Machine

-- What each mnemonic performs (40 R185).

/-- A result into A, with Z and N from it (43 R215). -/
def intoA (v : Byte) (s : State) : State := (s.setA v).setZN v

/-- AND (43 R216). -/
def andA (o : Operand) (s : State) : State :=
  let r := load o s
  intoA (r.2.cpu.a &&& r.1) r.2

/-- EOR (43 R217). -/
def eor (o : Operand) (s : State) : State :=
  let r := load o s
  intoA (r.2.cpu.a ^^^ r.1) r.2

/-- ORA (43 R218). -/
def ora (o : Operand) (s : State) : State :=
  let r := load o s
  intoA (r.2.cpu.a ||| r.1) r.2

/-- ASL (43 R219). -/
def asl (o : Operand) (s : State) : State :=
  let r := load o s
  let t := store o (aslResult r.1) r.2
  t.setP (shiftP t.cpu.p (r.1.getLsbD 7) (aslResult r.1))

/-- LSR (43 R220). -/
def lsr (o : Operand) (s : State) : State :=
  let r := load o s
  let t := store o (lsrResult r.1) r.2
  t.setP (shiftP t.cpu.p (r.1.getLsbD 0) (lsrResult r.1))

/-- ROL (43 R221). -/
def rol (o : Operand) (s : State) : State :=
  let r := load o s
  let v := rolResult r.1 (r.2.flag .c)
  let t := store o v r.2
  t.setP (shiftP t.cpu.p (r.1.getLsbD 7) v)

/-- ROR (43 R222). -/
def ror (o : Operand) (s : State) : State :=
  let r := load o s
  let v := rorResult r.1 (r.2.flag .c)
  let t := store o v r.2
  t.setP (shiftP t.cpu.p (r.1.getLsbD 0) v)

/-- BIT (43 R223). -/
def bit (o : Operand) (s : State) : State :=
  let r := load o s
  r.2.setP (bitP r.2.cpu.p r.2.cpu.a r.1)

-- The meanings, one for each opcode (30 R146).

/-- AND (nn,X), $21 (R216). -/
def execAndIndX (a : Byte) (s : State) : Result := run (.indX a) 6 .none andA s

/-- AND nn, $25 (R216). -/
def execAndZp (a : Byte) (s : State) : Result := run (.zp a) 3 .none andA s

/-- AND #nn, $29 (R216). -/
def execAndImm (v : Byte) (s : State) : Result := run (.imm v) 2 .none andA s

/-- AND nnnn, $2D (R216). -/
def execAndAbs (w : Addr) (s : State) : Result := run (.abs w) 4 .none andA s

/-- AND (nn),Y, $31 (R216). -/
def execAndIndY (a : Byte) (s : State) : Result := run (.indY a) 5 .page andA s

/-- AND nn,X, $35 (R216). -/
def execAndZpX (a : Byte) (s : State) : Result := run (.zpX a) 4 .none andA s

/-- AND nnnn,Y, $39 (R216). -/
def execAndAbsY (w : Addr) (s : State) : Result := run (.absY w) 4 .page andA s

/-- AND nnnn,X, $3D (R216). -/
def execAndAbsX (w : Addr) (s : State) : Result := run (.absX w) 4 .page andA s

/-- EOR (nn,X), $41 (R217). -/
def execEorIndX (a : Byte) (s : State) : Result := run (.indX a) 6 .none eor s

/-- EOR nn, $45 (R217). -/
def execEorZp (a : Byte) (s : State) : Result := run (.zp a) 3 .none eor s

/-- EOR #nn, $49 (R217). -/
def execEorImm (v : Byte) (s : State) : Result := run (.imm v) 2 .none eor s

/-- EOR nnnn, $4D (R217). -/
def execEorAbs (w : Addr) (s : State) : Result := run (.abs w) 4 .none eor s

/-- EOR (nn),Y, $51 (R217). -/
def execEorIndY (a : Byte) (s : State) : Result := run (.indY a) 5 .page eor s

/-- EOR nn,X, $55 (R217). -/
def execEorZpX (a : Byte) (s : State) : Result := run (.zpX a) 4 .none eor s

/-- EOR nnnn,Y, $59 (R217). -/
def execEorAbsY (w : Addr) (s : State) : Result := run (.absY w) 4 .page eor s

/-- EOR nnnn,X, $5D (R217). -/
def execEorAbsX (w : Addr) (s : State) : Result := run (.absX w) 4 .page eor s

/-- ORA (nn,X), $01 (R218). -/
def execOraIndX (a : Byte) (s : State) : Result := run (.indX a) 6 .none ora s

/-- ORA nn, $05 (R218). -/
def execOraZp (a : Byte) (s : State) : Result := run (.zp a) 3 .none ora s

/-- ORA #nn, $09 (R218). -/
def execOraImm (v : Byte) (s : State) : Result := run (.imm v) 2 .none ora s

/-- ORA nnnn, $0D (R218). -/
def execOraAbs (w : Addr) (s : State) : Result := run (.abs w) 4 .none ora s

/-- ORA (nn),Y, $11 (R218). -/
def execOraIndY (a : Byte) (s : State) : Result := run (.indY a) 5 .page ora s

/-- ORA nn,X, $15 (R218). -/
def execOraZpX (a : Byte) (s : State) : Result := run (.zpX a) 4 .none ora s

/-- ORA nnnn,Y, $19 (R218). -/
def execOraAbsY (w : Addr) (s : State) : Result := run (.absY w) 4 .page ora s

/-- ORA nnnn,X, $1D (R218). -/
def execOraAbsX (w : Addr) (s : State) : Result := run (.absX w) 4 .page ora s

/-- ASL nn, $06 (R219). -/
def execAslZp (a : Byte) (s : State) : Result := run (.zp a) 5 .none asl s

/-- ASL A, $0A (R219). -/
def execAslAcc (s : State) : Result := run .acc 2 .none asl s

/-- ASL nnnn, $0E (R219). -/
def execAslAbs (w : Addr) (s : State) : Result := run (.abs w) 6 .none asl s

/-- ASL nn,X, $16 (R219). -/
def execAslZpX (a : Byte) (s : State) : Result := run (.zpX a) 6 .none asl s

/-- ASL nnnn,X, $1E (R219). -/
def execAslAbsX (w : Addr) (s : State) : Result := run (.absX w) 7 .none asl s

/-- LSR nn, $46 (R220). -/
def execLsrZp (a : Byte) (s : State) : Result := run (.zp a) 5 .none lsr s

/-- LSR A, $4A (R220). -/
def execLsrAcc (s : State) : Result := run .acc 2 .none lsr s

/-- LSR nnnn, $4E (R220). -/
def execLsrAbs (w : Addr) (s : State) : Result := run (.abs w) 6 .none lsr s

/-- LSR nn,X, $56 (R220). -/
def execLsrZpX (a : Byte) (s : State) : Result := run (.zpX a) 6 .none lsr s

/-- LSR nnnn,X, $5E (R220). -/
def execLsrAbsX (w : Addr) (s : State) : Result := run (.absX w) 7 .none lsr s

/-- ROL nn, $26 (R221). -/
def execRolZp (a : Byte) (s : State) : Result := run (.zp a) 5 .none rol s

/-- ROL A, $2A (R221). -/
def execRolAcc (s : State) : Result := run .acc 2 .none rol s

/-- ROL nnnn, $2E (R221). -/
def execRolAbs (w : Addr) (s : State) : Result := run (.abs w) 6 .none rol s

/-- ROL nn,X, $36 (R221). -/
def execRolZpX (a : Byte) (s : State) : Result := run (.zpX a) 6 .none rol s

/-- ROL nnnn,X, $3E (R221). -/
def execRolAbsX (w : Addr) (s : State) : Result := run (.absX w) 7 .none rol s

/-- ROR nn, $66 (R222). -/
def execRorZp (a : Byte) (s : State) : Result := run (.zp a) 5 .none ror s

/-- ROR A, $6A (R222). -/
def execRorAcc (s : State) : Result := run .acc 2 .none ror s

/-- ROR nnnn, $6E (R222). -/
def execRorAbs (w : Addr) (s : State) : Result := run (.abs w) 6 .none ror s

/-- ROR nn,X, $76 (R222). -/
def execRorZpX (a : Byte) (s : State) : Result := run (.zpX a) 6 .none ror s

/-- ROR nnnn,X, $7E (R222). -/
def execRorAbsX (w : Addr) (s : State) : Result := run (.absX w) 7 .none ror s

/-- BIT nn, $24 (R223). -/
def execBitZp (a : Byte) (s : State) : Result := run (.zp a) 3 .none bit s

/-- BIT nnnn, $2C (R223). -/
def execBitAbs (w : Addr) (s : State) : Result := run (.abs w) 4 .none bit s

end Sys2Proof.Machine
end

