-- ==== Sys2Proof/Machine/StackFlags.lean ====
section
/-! DEFINITION. Stack, flag, transfer and NOP instructions (45 R240 to R258). -/

namespace Sys2Proof.Machine

-- What each mnemonic performs (40 R185).

/-- PHP (45 R241). -/
def php (_ : Operand) (s : State) : State := push s (pushedP s.cpu.p)

/-- PHA (45 R242). -/
def pha (_ : Operand) (s : State) : State := push s s.cpu.a

/-- PLP (45 R243). -/
def plp (_ : Operand) (s : State) : State :=
  let r := pull s
  r.2.setP (pulledP r.2.cpu.p r.1)

/-- PLA (45 R244). -/
def pla (_ : Operand) (s : State) : State :=
  let r := pull s
  (r.2.setA r.1).setZN r.1

/-- CLC (45 R245). -/
def clc (_ : Operand) (s : State) : State := s.setFlag .c false

/-- SEC (45 R246). -/
def sec (_ : Operand) (s : State) : State := s.setFlag .c true

/-- CLI (45 R247). -/
def cli (_ : Operand) (s : State) : State := s.setFlag .i false

/-- SEI (45 R248). -/
def sei (_ : Operand) (s : State) : State := s.setFlag .i true

/-- CLD (45 R249). -/
def cld (_ : Operand) (s : State) : State := s.setFlag .d false

/-- SED (45 R250). -/
def sed (_ : Operand) (s : State) : State := s.setFlag .d true

/-- CLV (45 R251). -/
def clv (_ : Operand) (s : State) : State := s.setFlag .v false

/-- TAX (45 R252). -/
def tax (_ : Operand) (s : State) : State := (s.setX s.cpu.a).setZN s.cpu.a

/-- TAY (45 R253). -/
def tay (_ : Operand) (s : State) : State := (s.setY s.cpu.a).setZN s.cpu.a

/-- TXA (45 R254). -/
def txa (_ : Operand) (s : State) : State := (s.setA s.cpu.x).setZN s.cpu.x

/-- TYA (45 R255). -/
def tya (_ : Operand) (s : State) : State := (s.setA s.cpu.y).setZN s.cpu.y

/-- TSX (45 R256). -/
def tsx (_ : Operand) (s : State) : State := (s.setX s.cpu.s).setZN s.cpu.s

/-- TXS (45 R257): no flag. -/
def txs (_ : Operand) (s : State) : State := s.setS s.cpu.x

/-- NOP (45 R258). -/
def nop (_ : Operand) (s : State) : State := s

-- The meanings, one for each opcode (30 R146).

/-- PHP, $08 (R241). -/
def execPhp (s : State) : Result := run .imp 3 .none php s

/-- PHA, $48 (R242). -/
def execPha (s : State) : Result := run .imp 3 .none pha s

/-- PLP, $28 (R243). -/
def execPlp (s : State) : Result := run .imp 4 .none plp s

/-- PLA, $68 (R244). -/
def execPla (s : State) : Result := run .imp 4 .none pla s

/-- CLC, $18 (R245). -/
def execClc (s : State) : Result := run .imp 2 .none clc s

/-- SEC, $38 (R246). -/
def execSec (s : State) : Result := run .imp 2 .none sec s

/-- CLI, $58 (R247). -/
def execCli (s : State) : Result := run .imp 2 .none cli s

/-- SEI, $78 (R248). -/
def execSei (s : State) : Result := run .imp 2 .none sei s

/-- CLD, $D8 (R249). -/
def execCld (s : State) : Result := run .imp 2 .none cld s

/-- SED, $F8 (R250). -/
def execSed (s : State) : Result := run .imp 2 .none sed s

/-- CLV, $B8 (R251). -/
def execClv (s : State) : Result := run .imp 2 .none clv s

/-- TAX, $AA (R252). -/
def execTax (s : State) : Result := run .imp 2 .none tax s

/-- TAY, $A8 (R253). -/
def execTay (s : State) : Result := run .imp 2 .none tay s

/-- TXA, $8A (R254). -/
def execTxa (s : State) : Result := run .imp 2 .none txa s

/-- TYA, $98 (R255). -/
def execTya (s : State) : Result := run .imp 2 .none tya s

/-- TSX, $BA (R256). -/
def execTsx (s : State) : Result := run .imp 2 .none tsx s

/-- TXS, $9A (R257). -/
def execTxs (s : State) : Result := run .imp 2 .none txs s

/-- NOP, $EA (R258). -/
def execNop (s : State) : Result := run .imp 2 .none nop s

end Sys2Proof.Machine
end

