-- ==== Sys2Proof/Machine/Unofficial.lean ====
section
/-! DEFINITION. Unofficial and undefined opcodes (46 R260 to R274). A composite reads once, writes once, then runs its second
operation on the value written (46 R260). -/

namespace Sys2Proof.Machine

-- What each mnemonic performs (40 R185).

/-- SLO (46 R261). -/
def slo (o : Operand) (s : State) : State :=
  let r := load o s
  let t := store o (aslResult r.1) r.2
  intoA (t.cpu.a ||| aslResult r.1) (t.setFlag .c (r.1.getLsbD 7))

/-- RLA (46 R262). -/
def rla (o : Operand) (s : State) : State :=
  let r := load o s
  let v := rolResult r.1 (r.2.flag .c)
  let t := store o v r.2
  intoA (t.cpu.a &&& v) (t.setFlag .c (r.1.getLsbD 7))

/-- SRE (46 R263). -/
def sre (o : Operand) (s : State) : State :=
  let r := load o s
  let t := store o (lsrResult r.1) r.2
  intoA (t.cpu.a ^^^ lsrResult r.1) (t.setFlag .c (r.1.getLsbD 0))

/-- RRA (46 R264). -/
def rra (o : Operand) (s : State) : State :=
  let r := load o s
  let v := rorResult r.1 (r.2.flag .c)
  let t := store o v r.2
  adcByte v (t.setFlag .c (r.1.getLsbD 0))

/-- DCP (46 R265). -/
def dcp (o : Operand) (s : State) : State :=
  let r := load o s
  cmpByte (r.1 - 1) (store o (r.1 - 1) r.2)

/-- ISC (46 R266). -/
def isc (o : Operand) (s : State) : State :=
  let r := load o s
  sbcByte (r.1 + 1) (store o (r.1 + 1) r.2)

/-- SAX (46 R267): no flag. -/
def sax (o : Operand) (s : State) : State := store o (s.cpu.a &&& s.cpu.x) s

/-- LAX (46 R268). -/
def lax (o : Operand) (s : State) : State :=
  let r := load o s
  (intoA r.1 r.2).setX r.1

/-- ANC (46 R269). -/
def anc (o : Operand) (s : State) : State :=
  let r := load o s
  let t := intoA (r.2.cpu.a &&& r.1) r.2
  t.setFlag .c (t.flag .n)

/-- ALR (46 R270). -/
def alr (o : Operand) (s : State) : State :=
  let r := load o s
  let t := r.2.cpu.a &&& r.1
  intoA (lsrResult t) (r.2.setFlag .c (t.getLsbD 0))

/-- *SBC (46 R271). -/
def sbcU (o : Operand) (s : State) : State :=
  let r := load o s
  sbcByte r.1 r.2

/-- *NOP (46 R272): no read of the effective address. -/
def nopU (_ : Operand) (s : State) : State := s

/-- UNDEF (46 R273). -/
def undef (_ : Operand) (s : State) : State := s

-- The meanings, one for each opcode (30 R146).

/-- SLO (nn,X), $03 (R261). -/
def execSloIndX (a : Byte) (s : State) : Result := run (.indX a) 8 .none slo s

/-- SLO nn, $07 (R261). -/
def execSloZp (a : Byte) (s : State) : Result := run (.zp a) 5 .none slo s

/-- SLO nnnn, $0F (R261). -/
def execSloAbs (w : Addr) (s : State) : Result := run (.abs w) 6 .none slo s

/-- SLO (nn),Y, $13 (R261). -/
def execSloIndY (a : Byte) (s : State) : Result := run (.indY a) 8 .none slo s

/-- SLO nn,X, $17 (R261). -/
def execSloZpX (a : Byte) (s : State) : Result := run (.zpX a) 6 .none slo s

/-- SLO nnnn,Y, $1B (R261). -/
def execSloAbsY (w : Addr) (s : State) : Result := run (.absY w) 7 .none slo s

/-- SLO nnnn,X, $1F (R261). -/
def execSloAbsX (w : Addr) (s : State) : Result := run (.absX w) 7 .none slo s

/-- RLA (nn,X), $23 (R262). -/
def execRlaIndX (a : Byte) (s : State) : Result := run (.indX a) 8 .none rla s

/-- RLA nn, $27 (R262). -/
def execRlaZp (a : Byte) (s : State) : Result := run (.zp a) 5 .none rla s

/-- RLA nnnn, $2F (R262). -/
def execRlaAbs (w : Addr) (s : State) : Result := run (.abs w) 6 .none rla s

/-- RLA (nn),Y, $33 (R262). -/
def execRlaIndY (a : Byte) (s : State) : Result := run (.indY a) 8 .none rla s

/-- RLA nn,X, $37 (R262). -/
def execRlaZpX (a : Byte) (s : State) : Result := run (.zpX a) 6 .none rla s

/-- RLA nnnn,Y, $3B (R262). -/
def execRlaAbsY (w : Addr) (s : State) : Result := run (.absY w) 7 .none rla s

/-- RLA nnnn,X, $3F (R262). -/
def execRlaAbsX (w : Addr) (s : State) : Result := run (.absX w) 7 .none rla s

/-- SRE (nn,X), $43 (R263). -/
def execSreIndX (a : Byte) (s : State) : Result := run (.indX a) 8 .none sre s

/-- SRE nn, $47 (R263). -/
def execSreZp (a : Byte) (s : State) : Result := run (.zp a) 5 .none sre s

/-- SRE nnnn, $4F (R263). -/
def execSreAbs (w : Addr) (s : State) : Result := run (.abs w) 6 .none sre s

/-- SRE (nn),Y, $53 (R263). -/
def execSreIndY (a : Byte) (s : State) : Result := run (.indY a) 8 .none sre s

/-- SRE nn,X, $57 (R263). -/
def execSreZpX (a : Byte) (s : State) : Result := run (.zpX a) 6 .none sre s

/-- SRE nnnn,Y, $5B (R263). -/
def execSreAbsY (w : Addr) (s : State) : Result := run (.absY w) 7 .none sre s

/-- SRE nnnn,X, $5F (R263). -/
def execSreAbsX (w : Addr) (s : State) : Result := run (.absX w) 7 .none sre s

/-- RRA (nn,X), $63 (R264). -/
def execRraIndX (a : Byte) (s : State) : Result := run (.indX a) 8 .none rra s

/-- RRA nn, $67 (R264). -/
def execRraZp (a : Byte) (s : State) : Result := run (.zp a) 5 .none rra s

/-- RRA nnnn, $6F (R264). -/
def execRraAbs (w : Addr) (s : State) : Result := run (.abs w) 6 .none rra s

/-- RRA (nn),Y, $73 (R264). -/
def execRraIndY (a : Byte) (s : State) : Result := run (.indY a) 8 .none rra s

/-- RRA nn,X, $77 (R264). -/
def execRraZpX (a : Byte) (s : State) : Result := run (.zpX a) 6 .none rra s

/-- RRA nnnn,Y, $7B (R264). -/
def execRraAbsY (w : Addr) (s : State) : Result := run (.absY w) 7 .none rra s

/-- RRA nnnn,X, $7F (R264). -/
def execRraAbsX (w : Addr) (s : State) : Result := run (.absX w) 7 .none rra s

/-- DCP (nn,X), $C3 (R265). -/
def execDcpIndX (a : Byte) (s : State) : Result := run (.indX a) 8 .none dcp s

/-- DCP nn, $C7 (R265). -/
def execDcpZp (a : Byte) (s : State) : Result := run (.zp a) 5 .none dcp s

/-- DCP nnnn, $CF (R265). -/
def execDcpAbs (w : Addr) (s : State) : Result := run (.abs w) 6 .none dcp s

/-- DCP (nn),Y, $D3 (R265). -/
def execDcpIndY (a : Byte) (s : State) : Result := run (.indY a) 8 .none dcp s

/-- DCP nn,X, $D7 (R265). -/
def execDcpZpX (a : Byte) (s : State) : Result := run (.zpX a) 6 .none dcp s

/-- DCP nnnn,Y, $DB (R265). -/
def execDcpAbsY (w : Addr) (s : State) : Result := run (.absY w) 7 .none dcp s

/-- DCP nnnn,X, $DF (R265). -/
def execDcpAbsX (w : Addr) (s : State) : Result := run (.absX w) 7 .none dcp s

/-- ISC (nn,X), $E3 (R266). -/
def execIscIndX (a : Byte) (s : State) : Result := run (.indX a) 8 .none isc s

/-- ISC nn, $E7 (R266). -/
def execIscZp (a : Byte) (s : State) : Result := run (.zp a) 5 .none isc s

/-- ISC nnnn, $EF (R266). -/
def execIscAbs (w : Addr) (s : State) : Result := run (.abs w) 6 .none isc s

/-- ISC (nn),Y, $F3 (R266). -/
def execIscIndY (a : Byte) (s : State) : Result := run (.indY a) 8 .none isc s

/-- ISC nn,X, $F7 (R266). -/
def execIscZpX (a : Byte) (s : State) : Result := run (.zpX a) 6 .none isc s

/-- ISC nnnn,Y, $FB (R266). -/
def execIscAbsY (w : Addr) (s : State) : Result := run (.absY w) 7 .none isc s

/-- ISC nnnn,X, $FF (R266). -/
def execIscAbsX (w : Addr) (s : State) : Result := run (.absX w) 7 .none isc s

/-- SAX (nn,X), $83 (R267). -/
def execSaxIndX (a : Byte) (s : State) : Result := run (.indX a) 6 .none sax s

/-- SAX nn, $87 (R267). -/
def execSaxZp (a : Byte) (s : State) : Result := run (.zp a) 3 .none sax s

/-- SAX nnnn, $8F (R267). -/
def execSaxAbs (w : Addr) (s : State) : Result := run (.abs w) 4 .none sax s

/-- SAX nn,Y, $97 (R267). -/
def execSaxZpY (a : Byte) (s : State) : Result := run (.zpY a) 4 .none sax s

/-- LAX (nn,X), $A3 (R268). -/
def execLaxIndX (a : Byte) (s : State) : Result := run (.indX a) 6 .none lax s

/-- LAX nn, $A7 (R268). -/
def execLaxZp (a : Byte) (s : State) : Result := run (.zp a) 3 .none lax s

/-- LAX nnnn, $AF (R268). -/
def execLaxAbs (w : Addr) (s : State) : Result := run (.abs w) 4 .none lax s

/-- LAX (nn),Y, $B3 (R268). -/
def execLaxIndY (a : Byte) (s : State) : Result := run (.indY a) 5 .page lax s

/-- LAX nn,Y, $B7 (R268). -/
def execLaxZpY (a : Byte) (s : State) : Result := run (.zpY a) 4 .none lax s

/-- LAX nnnn,Y, $BF (R268). -/
def execLaxAbsY (w : Addr) (s : State) : Result := run (.absY w) 4 .page lax s

/-- ANC #nn, $0B (R269). -/
def execAncImm0B (v : Byte) (s : State) : Result := run (.imm v) 2 .none anc s

/-- ANC #nn, $2B (R269). -/
def execAncImm2B (v : Byte) (s : State) : Result := run (.imm v) 2 .none anc s

/-- ALR #nn, $4B (R270). -/
def execAlrImm (v : Byte) (s : State) : Result := run (.imm v) 2 .none alr s

/-- *SBC #nn, $EB (R271). -/
def execSbcImmEB (v : Byte) (s : State) : Result := run (.imm v) 2 .none sbcU s

/-- *NOP nn, $04 (R272). -/
def execNopZp04 (a : Byte) (s : State) : Result := run (.zp a) 3 .none nopU s

/-- *NOP nnnn, $0C (R272). -/
def execNopAbs0C (w : Addr) (s : State) : Result := run (.abs w) 4 .none nopU s

/-- *NOP nn,X, $14 (R272). -/
def execNopZpX14 (a : Byte) (s : State) : Result := run (.zpX a) 4 .none nopU s

/-- *NOP, $1A (R272). -/
def execNopImp1A (s : State) : Result := run .imp 2 .none nopU s

/-- *NOP nnnn,X, $1C (R272). -/
def execNopAbsX1C (w : Addr) (s : State) : Result := run (.absX w) 4 .page nopU s

/-- *NOP nn,X, $34 (R272). -/
def execNopZpX34 (a : Byte) (s : State) : Result := run (.zpX a) 4 .none nopU s

/-- *NOP, $3A (R272). -/
def execNopImp3A (s : State) : Result := run .imp 2 .none nopU s

/-- *NOP nnnn,X, $3C (R272). -/
def execNopAbsX3C (w : Addr) (s : State) : Result := run (.absX w) 4 .page nopU s

/-- *NOP nn, $44 (R272). -/
def execNopZp44 (a : Byte) (s : State) : Result := run (.zp a) 3 .none nopU s

/-- *NOP nn,X, $54 (R272). -/
def execNopZpX54 (a : Byte) (s : State) : Result := run (.zpX a) 4 .none nopU s

/-- *NOP, $5A (R272). -/
def execNopImp5A (s : State) : Result := run .imp 2 .none nopU s

/-- *NOP nnnn,X, $5C (R272). -/
def execNopAbsX5C (w : Addr) (s : State) : Result := run (.absX w) 4 .page nopU s

/-- *NOP nn, $64 (R272). -/
def execNopZp64 (a : Byte) (s : State) : Result := run (.zp a) 3 .none nopU s

/-- *NOP nn,X, $74 (R272). -/
def execNopZpX74 (a : Byte) (s : State) : Result := run (.zpX a) 4 .none nopU s

/-- *NOP, $7A (R272). -/
def execNopImp7A (s : State) : Result := run .imp 2 .none nopU s

/-- *NOP nnnn,X, $7C (R272). -/
def execNopAbsX7C (w : Addr) (s : State) : Result := run (.absX w) 4 .page nopU s

/-- *NOP #nn, $80 (R272). -/
def execNopImm80 (v : Byte) (s : State) : Result := run (.imm v) 2 .none nopU s

/-- *NOP #nn, $82 (R272). -/
def execNopImm82 (v : Byte) (s : State) : Result := run (.imm v) 2 .none nopU s

/-- *NOP #nn, $89 (R272). -/
def execNopImm89 (v : Byte) (s : State) : Result := run (.imm v) 2 .none nopU s

/-- *NOP #nn, $C2 (R272). -/
def execNopImmC2 (v : Byte) (s : State) : Result := run (.imm v) 2 .none nopU s

/-- *NOP nn,X, $D4 (R272). -/
def execNopZpXD4 (a : Byte) (s : State) : Result := run (.zpX a) 4 .none nopU s

/-- *NOP, $DA (R272). -/
def execNopImpDA (s : State) : Result := run .imp 2 .none nopU s

/-- *NOP nnnn,X, $DC (R272). -/
def execNopAbsXDC (w : Addr) (s : State) : Result := run (.absX w) 4 .page nopU s

/-- *NOP #nn, $E2 (R272). -/
def execNopImmE2 (v : Byte) (s : State) : Result := run (.imm v) 2 .none nopU s

/-- *NOP nn,X, $F4 (R272). -/
def execNopZpXF4 (a : Byte) (s : State) : Result := run (.zpX a) 4 .none nopU s

/-- *NOP, $FA (R272). -/
def execNopImpFA (s : State) : Result := run .imp 2 .none nopU s

/-- *NOP nnnn,X, $FC (R272). -/
def execNopAbsXFC (w : Addr) (s : State) : Result := run (.absX w) 4 .page nopU s

/-- UNDEF, the 22 undefined opcodes (46 R273). -/
def execUndef (_op : UndefOpcode) (s : State) : Result := run .imp1 1 .none undef s

end Sys2Proof.Machine
end

