-- ==== Sys2Proof/Machine/Dispatch.lean ====
section
/-! DEFINITION. One arm per instruction: which meaning runs (40 R161, R165). The state given is the one after the fetch
of the opcode and operand bytes, with PC past them (40 R162). -/

namespace Sys2Proof.Machine

def exec (i : Instr) (s : State) : Host.Outcome State Fault Refusal :=
  match i with
  | .brk => Sys2Proof.Machine.execBrk s
  | .oraIndX a => Sys2Proof.Machine.execOraIndX a s
  | .undef op => Sys2Proof.Machine.execUndef op s
  | .sloIndX a => Sys2Proof.Machine.execSloIndX a s
  | .nopZp04 a => Sys2Proof.Machine.execNopZp04 a s
  | .oraZp a => Sys2Proof.Machine.execOraZp a s
  | .aslZp a => Sys2Proof.Machine.execAslZp a s
  | .sloZp a => Sys2Proof.Machine.execSloZp a s
  | .php => Sys2Proof.Machine.execPhp s
  | .oraImm v => Sys2Proof.Machine.execOraImm v s
  | .aslAcc => Sys2Proof.Machine.execAslAcc s
  | .ancImm0B v => Sys2Proof.Machine.execAncImm0B v s
  | .nopAbs0C w => Sys2Proof.Machine.execNopAbs0C w s
  | .oraAbs w => Sys2Proof.Machine.execOraAbs w s
  | .aslAbs w => Sys2Proof.Machine.execAslAbs w s
  | .sloAbs w => Sys2Proof.Machine.execSloAbs w s
  | .bpl o => Sys2Proof.Machine.execBpl o s
  | .oraIndY a => Sys2Proof.Machine.execOraIndY a s
  | .sloIndY a => Sys2Proof.Machine.execSloIndY a s
  | .nopZpX14 a => Sys2Proof.Machine.execNopZpX14 a s
  | .oraZpX a => Sys2Proof.Machine.execOraZpX a s
  | .aslZpX a => Sys2Proof.Machine.execAslZpX a s
  | .sloZpX a => Sys2Proof.Machine.execSloZpX a s
  | .clc => Sys2Proof.Machine.execClc s
  | .oraAbsY w => Sys2Proof.Machine.execOraAbsY w s
  | .nopImp1A => Sys2Proof.Machine.execNopImp1A s
  | .sloAbsY w => Sys2Proof.Machine.execSloAbsY w s
  | .nopAbsX1C w => Sys2Proof.Machine.execNopAbsX1C w s
  | .oraAbsX w => Sys2Proof.Machine.execOraAbsX w s
  | .aslAbsX w => Sys2Proof.Machine.execAslAbsX w s
  | .sloAbsX w => Sys2Proof.Machine.execSloAbsX w s
  | .jsrAbs w => Sys2Proof.Machine.execJsrAbs w s
  | .andIndX a => Sys2Proof.Machine.execAndIndX a s
  | .rlaIndX a => Sys2Proof.Machine.execRlaIndX a s
  | .bitZp a => Sys2Proof.Machine.execBitZp a s
  | .andZp a => Sys2Proof.Machine.execAndZp a s
  | .rolZp a => Sys2Proof.Machine.execRolZp a s
  | .rlaZp a => Sys2Proof.Machine.execRlaZp a s
  | .plp => Sys2Proof.Machine.execPlp s
  | .andImm v => Sys2Proof.Machine.execAndImm v s
  | .rolAcc => Sys2Proof.Machine.execRolAcc s
  | .ancImm2B v => Sys2Proof.Machine.execAncImm2B v s
  | .bitAbs w => Sys2Proof.Machine.execBitAbs w s
  | .andAbs w => Sys2Proof.Machine.execAndAbs w s
  | .rolAbs w => Sys2Proof.Machine.execRolAbs w s
  | .rlaAbs w => Sys2Proof.Machine.execRlaAbs w s
  | .bmi o => Sys2Proof.Machine.execBmi o s
  | .andIndY a => Sys2Proof.Machine.execAndIndY a s
  | .rlaIndY a => Sys2Proof.Machine.execRlaIndY a s
  | .nopZpX34 a => Sys2Proof.Machine.execNopZpX34 a s
  | .andZpX a => Sys2Proof.Machine.execAndZpX a s
  | .rolZpX a => Sys2Proof.Machine.execRolZpX a s
  | .rlaZpX a => Sys2Proof.Machine.execRlaZpX a s
  | .sec => Sys2Proof.Machine.execSec s
  | .andAbsY w => Sys2Proof.Machine.execAndAbsY w s
  | .nopImp3A => Sys2Proof.Machine.execNopImp3A s
  | .rlaAbsY w => Sys2Proof.Machine.execRlaAbsY w s
  | .nopAbsX3C w => Sys2Proof.Machine.execNopAbsX3C w s
  | .andAbsX w => Sys2Proof.Machine.execAndAbsX w s
  | .rolAbsX w => Sys2Proof.Machine.execRolAbsX w s
  | .rlaAbsX w => Sys2Proof.Machine.execRlaAbsX w s
  | .rti => Sys2Proof.Machine.execRti s
  | .eorIndX a => Sys2Proof.Machine.execEorIndX a s
  | .sreIndX a => Sys2Proof.Machine.execSreIndX a s
  | .nopZp44 a => Sys2Proof.Machine.execNopZp44 a s
  | .eorZp a => Sys2Proof.Machine.execEorZp a s
  | .lsrZp a => Sys2Proof.Machine.execLsrZp a s
  | .sreZp a => Sys2Proof.Machine.execSreZp a s
  | .pha => Sys2Proof.Machine.execPha s
  | .eorImm v => Sys2Proof.Machine.execEorImm v s
  | .lsrAcc => Sys2Proof.Machine.execLsrAcc s
  | .alrImm v => Sys2Proof.Machine.execAlrImm v s
  | .jmpAbs w => Sys2Proof.Machine.execJmpAbs w s
  | .eorAbs w => Sys2Proof.Machine.execEorAbs w s
  | .lsrAbs w => Sys2Proof.Machine.execLsrAbs w s
  | .sreAbs w => Sys2Proof.Machine.execSreAbs w s
  | .bvc o => Sys2Proof.Machine.execBvc o s
  | .eorIndY a => Sys2Proof.Machine.execEorIndY a s
  | .sreIndY a => Sys2Proof.Machine.execSreIndY a s
  | .nopZpX54 a => Sys2Proof.Machine.execNopZpX54 a s
  | .eorZpX a => Sys2Proof.Machine.execEorZpX a s
  | .lsrZpX a => Sys2Proof.Machine.execLsrZpX a s
  | .sreZpX a => Sys2Proof.Machine.execSreZpX a s
  | .cli => Sys2Proof.Machine.execCli s
  | .eorAbsY w => Sys2Proof.Machine.execEorAbsY w s
  | .nopImp5A => Sys2Proof.Machine.execNopImp5A s
  | .sreAbsY w => Sys2Proof.Machine.execSreAbsY w s
  | .nopAbsX5C w => Sys2Proof.Machine.execNopAbsX5C w s
  | .eorAbsX w => Sys2Proof.Machine.execEorAbsX w s
  | .lsrAbsX w => Sys2Proof.Machine.execLsrAbsX w s
  | .sreAbsX w => Sys2Proof.Machine.execSreAbsX w s
  | .rts => Sys2Proof.Machine.execRts s
  | .adcIndX a => Sys2Proof.Machine.execAdcIndX a s
  | .rraIndX a => Sys2Proof.Machine.execRraIndX a s
  | .nopZp64 a => Sys2Proof.Machine.execNopZp64 a s
  | .adcZp a => Sys2Proof.Machine.execAdcZp a s
  | .rorZp a => Sys2Proof.Machine.execRorZp a s
  | .rraZp a => Sys2Proof.Machine.execRraZp a s
  | .pla => Sys2Proof.Machine.execPla s
  | .adcImm v => Sys2Proof.Machine.execAdcImm v s
  | .rorAcc => Sys2Proof.Machine.execRorAcc s
  | .jmpInd w => Sys2Proof.Machine.execJmpInd w s
  | .adcAbs w => Sys2Proof.Machine.execAdcAbs w s
  | .rorAbs w => Sys2Proof.Machine.execRorAbs w s
  | .rraAbs w => Sys2Proof.Machine.execRraAbs w s
  | .bvs o => Sys2Proof.Machine.execBvs o s
  | .adcIndY a => Sys2Proof.Machine.execAdcIndY a s
  | .rraIndY a => Sys2Proof.Machine.execRraIndY a s
  | .nopZpX74 a => Sys2Proof.Machine.execNopZpX74 a s
  | .adcZpX a => Sys2Proof.Machine.execAdcZpX a s
  | .rorZpX a => Sys2Proof.Machine.execRorZpX a s
  | .rraZpX a => Sys2Proof.Machine.execRraZpX a s
  | .sei => Sys2Proof.Machine.execSei s
  | .adcAbsY w => Sys2Proof.Machine.execAdcAbsY w s
  | .nopImp7A => Sys2Proof.Machine.execNopImp7A s
  | .rraAbsY w => Sys2Proof.Machine.execRraAbsY w s
  | .nopAbsX7C w => Sys2Proof.Machine.execNopAbsX7C w s
  | .adcAbsX w => Sys2Proof.Machine.execAdcAbsX w s
  | .rorAbsX w => Sys2Proof.Machine.execRorAbsX w s
  | .rraAbsX w => Sys2Proof.Machine.execRraAbsX w s
  | .nopImm80 v => Sys2Proof.Machine.execNopImm80 v s
  | .staIndX a => Sys2Proof.Machine.execStaIndX a s
  | .nopImm82 v => Sys2Proof.Machine.execNopImm82 v s
  | .saxIndX a => Sys2Proof.Machine.execSaxIndX a s
  | .styZp a => Sys2Proof.Machine.execStyZp a s
  | .staZp a => Sys2Proof.Machine.execStaZp a s
  | .stxZp a => Sys2Proof.Machine.execStxZp a s
  | .saxZp a => Sys2Proof.Machine.execSaxZp a s
  | .dey => Sys2Proof.Machine.execDey s
  | .nopImm89 v => Sys2Proof.Machine.execNopImm89 v s
  | .txa => Sys2Proof.Machine.execTxa s
  | .styAbs w => Sys2Proof.Machine.execStyAbs w s
  | .staAbs w => Sys2Proof.Machine.execStaAbs w s
  | .stxAbs w => Sys2Proof.Machine.execStxAbs w s
  | .saxAbs w => Sys2Proof.Machine.execSaxAbs w s
  | .bcc o => Sys2Proof.Machine.execBcc o s
  | .staIndY a => Sys2Proof.Machine.execStaIndY a s
  | .styZpX a => Sys2Proof.Machine.execStyZpX a s
  | .staZpX a => Sys2Proof.Machine.execStaZpX a s
  | .stxZpY a => Sys2Proof.Machine.execStxZpY a s
  | .saxZpY a => Sys2Proof.Machine.execSaxZpY a s
  | .tya => Sys2Proof.Machine.execTya s
  | .staAbsY w => Sys2Proof.Machine.execStaAbsY w s
  | .txs => Sys2Proof.Machine.execTxs s
  | .staAbsX w => Sys2Proof.Machine.execStaAbsX w s
  | .ldyImm v => Sys2Proof.Machine.execLdyImm v s
  | .ldaIndX a => Sys2Proof.Machine.execLdaIndX a s
  | .ldxImm v => Sys2Proof.Machine.execLdxImm v s
  | .laxIndX a => Sys2Proof.Machine.execLaxIndX a s
  | .ldyZp a => Sys2Proof.Machine.execLdyZp a s
  | .ldaZp a => Sys2Proof.Machine.execLdaZp a s
  | .ldxZp a => Sys2Proof.Machine.execLdxZp a s
  | .laxZp a => Sys2Proof.Machine.execLaxZp a s
  | .tay => Sys2Proof.Machine.execTay s
  | .ldaImm v => Sys2Proof.Machine.execLdaImm v s
  | .tax => Sys2Proof.Machine.execTax s
  | .ldyAbs w => Sys2Proof.Machine.execLdyAbs w s
  | .ldaAbs w => Sys2Proof.Machine.execLdaAbs w s
  | .ldxAbs w => Sys2Proof.Machine.execLdxAbs w s
  | .laxAbs w => Sys2Proof.Machine.execLaxAbs w s
  | .bcs o => Sys2Proof.Machine.execBcs o s
  | .ldaIndY a => Sys2Proof.Machine.execLdaIndY a s
  | .laxIndY a => Sys2Proof.Machine.execLaxIndY a s
  | .ldyZpX a => Sys2Proof.Machine.execLdyZpX a s
  | .ldaZpX a => Sys2Proof.Machine.execLdaZpX a s
  | .ldxZpY a => Sys2Proof.Machine.execLdxZpY a s
  | .laxZpY a => Sys2Proof.Machine.execLaxZpY a s
  | .clv => Sys2Proof.Machine.execClv s
  | .ldaAbsY w => Sys2Proof.Machine.execLdaAbsY w s
  | .tsx => Sys2Proof.Machine.execTsx s
  | .ldyAbsX w => Sys2Proof.Machine.execLdyAbsX w s
  | .ldaAbsX w => Sys2Proof.Machine.execLdaAbsX w s
  | .ldxAbsY w => Sys2Proof.Machine.execLdxAbsY w s
  | .laxAbsY w => Sys2Proof.Machine.execLaxAbsY w s
  | .cpyImm v => Sys2Proof.Machine.execCpyImm v s
  | .cmpIndX a => Sys2Proof.Machine.execCmpIndX a s
  | .nopImmC2 v => Sys2Proof.Machine.execNopImmC2 v s
  | .dcpIndX a => Sys2Proof.Machine.execDcpIndX a s
  | .cpyZp a => Sys2Proof.Machine.execCpyZp a s
  | .cmpZp a => Sys2Proof.Machine.execCmpZp a s
  | .decZp a => Sys2Proof.Machine.execDecZp a s
  | .dcpZp a => Sys2Proof.Machine.execDcpZp a s
  | .iny => Sys2Proof.Machine.execIny s
  | .cmpImm v => Sys2Proof.Machine.execCmpImm v s
  | .dex => Sys2Proof.Machine.execDex s
  | .cpyAbs w => Sys2Proof.Machine.execCpyAbs w s
  | .cmpAbs w => Sys2Proof.Machine.execCmpAbs w s
  | .decAbs w => Sys2Proof.Machine.execDecAbs w s
  | .dcpAbs w => Sys2Proof.Machine.execDcpAbs w s
  | .bne o => Sys2Proof.Machine.execBne o s
  | .cmpIndY a => Sys2Proof.Machine.execCmpIndY a s
  | .dcpIndY a => Sys2Proof.Machine.execDcpIndY a s
  | .nopZpXD4 a => Sys2Proof.Machine.execNopZpXD4 a s
  | .cmpZpX a => Sys2Proof.Machine.execCmpZpX a s
  | .decZpX a => Sys2Proof.Machine.execDecZpX a s
  | .dcpZpX a => Sys2Proof.Machine.execDcpZpX a s
  | .cld => Sys2Proof.Machine.execCld s
  | .cmpAbsY w => Sys2Proof.Machine.execCmpAbsY w s
  | .nopImpDA => Sys2Proof.Machine.execNopImpDA s
  | .dcpAbsY w => Sys2Proof.Machine.execDcpAbsY w s
  | .nopAbsXDC w => Sys2Proof.Machine.execNopAbsXDC w s
  | .cmpAbsX w => Sys2Proof.Machine.execCmpAbsX w s
  | .decAbsX w => Sys2Proof.Machine.execDecAbsX w s
  | .dcpAbsX w => Sys2Proof.Machine.execDcpAbsX w s
  | .cpxImm v => Sys2Proof.Machine.execCpxImm v s
  | .sbcIndX a => Sys2Proof.Machine.execSbcIndX a s
  | .nopImmE2 v => Sys2Proof.Machine.execNopImmE2 v s
  | .iscIndX a => Sys2Proof.Machine.execIscIndX a s
  | .cpxZp a => Sys2Proof.Machine.execCpxZp a s
  | .sbcZp a => Sys2Proof.Machine.execSbcZp a s
  | .incZp a => Sys2Proof.Machine.execIncZp a s
  | .iscZp a => Sys2Proof.Machine.execIscZp a s
  | .inx => Sys2Proof.Machine.execInx s
  | .sbcImm v => Sys2Proof.Machine.execSbcImm v s
  | .nop => Sys2Proof.Machine.execNop s
  | .sbcImmEB v => Sys2Proof.Machine.execSbcImmEB v s
  | .cpxAbs w => Sys2Proof.Machine.execCpxAbs w s
  | .sbcAbs w => Sys2Proof.Machine.execSbcAbs w s
  | .incAbs w => Sys2Proof.Machine.execIncAbs w s
  | .iscAbs w => Sys2Proof.Machine.execIscAbs w s
  | .beq o => Sys2Proof.Machine.execBeq o s
  | .sbcIndY a => Sys2Proof.Machine.execSbcIndY a s
  | .iscIndY a => Sys2Proof.Machine.execIscIndY a s
  | .nopZpXF4 a => Sys2Proof.Machine.execNopZpXF4 a s
  | .sbcZpX a => Sys2Proof.Machine.execSbcZpX a s
  | .incZpX a => Sys2Proof.Machine.execIncZpX a s
  | .iscZpX a => Sys2Proof.Machine.execIscZpX a s
  | .sed => Sys2Proof.Machine.execSed s
  | .sbcAbsY w => Sys2Proof.Machine.execSbcAbsY w s
  | .nopImpFA => Sys2Proof.Machine.execNopImpFA s
  | .iscAbsY w => Sys2Proof.Machine.execIscAbsY w s
  | .nopAbsXFC w => Sys2Proof.Machine.execNopAbsXFC w s
  | .sbcAbsX w => Sys2Proof.Machine.execSbcAbsX w s
  | .incAbsX w => Sys2Proof.Machine.execIncAbsX w s
  | .iscAbsX w => Sys2Proof.Machine.execIscAbsX w s

end Sys2Proof.Machine
end

