-- ==== Sys2Proof/Machine/Reset.lean ====
section
/-! DEFINITION. Power-on (70 R380), the resets of the CPU, the PPU and the machine (70 R381, R382, R385), and loading a
cartridge (70 R398). The cartridge's own reset (70 R383) is Cart.reset, beside its registers. -/

namespace Sys2Proof.Machine

/-- Power-on with a cartridge (70 R380): every device at its power-on value, and PC read from the reset vector through
the bus. State.reset is this for the blank cartridge (log 2). -/
def powerOn (c : Cart) : State :=
  let s : State :=
    { cpu := Cpu.initial 0, ppu := Ppu.initial, cart := c, wram := [], pads := Pads.initial, port := Port.initial }
  let r := read16 s resetVector
  { r.2 with cpu := Cpu.initial r.1 }

/-- Load a cartridge image: a machine, or a load error and no machine (70 R380, R398). -/
def loadCartridge (image : List Byte) : Except LoadError State :=
  match Cart.ofINes image with
  | .ok c => .ok (powerOn c)
  | .error e => .error e

/-- `cpu_reset()` (70 R381). No byte is pushed; A, X, Y, the other flags, cycle_count and the latent operand state
are kept. -/
def cpuReset (s : State) : State :=
  let r := read16 s resetVector
  let c := r.2.cpu
  { r.2 with
    cpu := { c with
      pc := r.1
      p := withFlag c.p .i true
      s := c.s - 3
      cyclesUntilNext := 7
      nmiPending := false
      irqPending := false
      dmaRemaining := 0
      dmaPage := 0
      dmaBuffer := 0 } }

/-- The PPU reset (70 R382): its power-on value but for what is kept, palette, nametables, both OAMs with their
count (10 R35) and the caller's frame buffer (10 R49). -/
def Ppu.reset (p : Ppu) : Ppu :=
  { Ppu.initial with
    pal := p.pal
    nt := p.nt
    oam := p.oam
    oam2 := p.oam2
    oam2Count := p.oam2Count
    frameOut := p.frameOut }

/-- The machine reset (70 R385): cartridge, then PPU, then CPU, which reads the vector through the mapper in its reset
state. Work RAM and the controllers are kept (70 R384). -/
def machineReset (s : State) : State := cpuReset { s with cart := s.cart.reset, ppu := s.ppu.reset }

end Sys2Proof.Machine
end

