-- ==== Sys2Proof/Machine/SnapshotFormat.lean ====
section
/-! DEFINITION. SNAPSHOT_FORMAT (00 R9, 70 R399, D63): the byte layout of a snapshot, left open. A format is any pair of
an encoder and a decoder with the round trip that 70 R399 asks for; the machine's is a constant without a body. The plain
layout below only shows that a format exists, so that such a constant can be declared; nothing else uses it. -/

namespace Sys2Proof.Machine

-- A plain layout: every element as a list of numbers.

/-- Element `i` of a list of numbers. -/
abbrev nth (l : List Nat) (i : Nat) : Nat := l.getD i 0

/-- Element `i` of a list of lists of numbers. -/
abbrev nths (l : List (List Nat)) (i : Nat) : List Nat := l.getD i []

/-- A CPU as numbers. -/
def Cpu.numbers (c : Cpu) : List Nat :=
  [c.a.toNat, c.x.toNat, c.y.toNat, c.s.toNat, c.p.toNat, c.pc.toNat, c.cycleCount, c.cyclesUntilNext.toNat,
   c.operandAddr.toNat, c.isMemoryOperand.toNat, c.pageCrossed.toNat, c.nmiPending.toNat, c.irqPending.toNat,
   c.dmaPage.toNat, c.dmaRemaining, c.dmaBuffer.toNat]

/-- A CPU from its numbers. -/
def Cpu.ofNumbers (l : List Nat) : Cpu :=
  { a := BitVec.ofNat 8 (nth l 0), x := BitVec.ofNat 8 (nth l 1), y := BitVec.ofNat 8 (nth l 2)
    s := BitVec.ofNat 8 (nth l 3), p := BitVec.ofNat 8 (nth l 4), pc := BitVec.ofNat 16 (nth l 5)
    cycleCount := nth l 6, cyclesUntilNext := BitVec.ofNat 16 (nth l 7), operandAddr := BitVec.ofNat 16 (nth l 8)
    isMemoryOperand := nth l 9 == 1, pageCrossed := nth l 10 == 1, nmiPending := nth l 11 == 1
    irqPending := nth l 12 == 1, dmaPage := BitVec.ofNat 8 (nth l 13), dmaRemaining := nth l 14
    dmaBuffer := BitVec.ofNat 8 (nth l 15) }

theorem Cpu.ofNumbers_numbers (c : Cpu) : Cpu.ofNumbers c.numbers = c := by simp [Cpu.ofNumbers, Cpu.numbers]

/-- A memory as numbers, address and byte in turn. -/
def cellNumbers {n : Nat} : List (Nat × BitVec n) → List Nat
  | [] => []
  | c :: m => c.1 :: c.2.toNat :: cellNumbers m

/-- Cells from their numbers. -/
def cellsOf (n : Nat) : List Nat → List (Nat × BitVec n)
  | a :: v :: l => (a, BitVec.ofNat n v) :: cellsOf n l
  | _ => []

theorem cellsOf_cellNumbers {n : Nat} (m : List (Nat × BitVec n)) : cellsOf n (cellNumbers m) = m := by
  induction m with
  | nil => rfl
  | cons c m ih => simp [cellNumbers, cellsOf, ih]

/-- A slot of the sprite pipeline as one number. -/
def SpriteSlot.number (s : SpriteSlot) : Nat := Nat.pair (Nat.pair s.lo.toNat s.hi.toNat) (Nat.pair s.attr.toNat s.x.toNat)

/-- A slot from its number. -/
def SpriteSlot.ofNumber (n : Nat) : SpriteSlot :=
  let p := Nat.unpair n.unpair.1
  let q := Nat.unpair n.unpair.2
  ⟨BitVec.ofNat 8 p.1, BitVec.ofNat 8 p.2, BitVec.ofNat 8 q.1, BitVec.ofNat 8 q.2⟩

theorem SpriteSlot.ofNumber_number (s : SpriteSlot) : SpriteSlot.ofNumber s.number = s := by
  simp [SpriteSlot.ofNumber, SpriteSlot.number]

/-- The registers and counters of a PPU as numbers; its memories, slots and frame stand beside them. -/
def Ppu.numbers (p : Ppu) : List Nat :=
  [p.oam2Count, p.scanline.toNat, (-p.scanline).toNat, p.dot, p.frame, p.frameReady.toNat, p.v.toNat, p.t.toNat,
   p.x.toNat, p.w.toNat, p.ctrl.inc32.toNat, p.ctrl.sprTable.toNat, p.ctrl.bgTable.toNat, p.ctrl.spr16.toNat,
   p.ctrl.nmiEnable.toNat, p.mask.grayscale.toNat, p.mask.showBgLeft.toNat, p.mask.showSprLeft.toNat,
   p.mask.showBg.toNat, p.mask.showSpr.toNat, p.mask.emphasis.toNat, p.status.sprOverflow.toNat,
   p.status.spr0Hit.toNat, p.status.vblank.toNat, p.oamaddr.toNat, p.readBuffer.toNat, p.bgPatLo.toNat,
   p.bgPatHi.toNat, p.bgAttrLo.toNat, p.bgAttrHi.toNat, p.latPatLo.toNat, p.latPatHi.toNat, p.latAttr.toNat,
   p.latTile.toNat, p.sprite0InSecondary.toNat, p.sprite0InScanline.toNat, p.renderingSprite0.toNat]

/-- A PPU from the numbers of its registers, its memories, its slots and its frame. -/
def Ppu.ofNumbers (l pal nt oam oam2 slots : List Nat) (frame : FrameBuffer) : Ppu :=
  { pal := cellsOf 8 pal, nt := cellsOf 8 nt, oam := cellsOf 8 oam
    oam2 := Vector.ofFn fun i => BitVec.ofNat 8 (nth oam2 i)
    oam2Count := nth l 0, scanline := (nth l 1 : Int) - (nth l 2 : Int), dot := nth l 3, frame := nth l 4
    frameReady := nth l 5 == 1, v := BitVec.ofNat 15 (nth l 6), t := BitVec.ofNat 15 (nth l 7)
    x := BitVec.ofNat 3 (nth l 8), w := nth l 9 == 1
    ctrl := ⟨nth l 10 == 1, nth l 11 == 1, nth l 12 == 1, nth l 13 == 1, nth l 14 == 1⟩
    mask := ⟨nth l 15 == 1, nth l 16 == 1, nth l 17 == 1, nth l 18 == 1, nth l 19 == 1, BitVec.ofNat 3 (nth l 20)⟩
    status := ⟨nth l 21 == 1, nth l 22 == 1, nth l 23 == 1⟩
    oamaddr := BitVec.ofNat 8 (nth l 24), readBuffer := BitVec.ofNat 8 (nth l 25)
    bgPatLo := BitVec.ofNat 16 (nth l 26), bgPatHi := BitVec.ofNat 16 (nth l 27)
    bgAttrLo := BitVec.ofNat 16 (nth l 28), bgAttrHi := BitVec.ofNat 16 (nth l 29)
    latPatLo := BitVec.ofNat 8 (nth l 30), latPatHi := BitVec.ofNat 8 (nth l 31), latAttr := BitVec.ofNat 2 (nth l 32)
    latTile := BitVec.ofNat 8 (nth l 33)
    slots := Vector.ofFn fun i => SpriteSlot.ofNumber (nth slots i)
    sprite0InSecondary := nth l 34 == 1, sprite0InScanline := nth l 35 == 1, renderingSprite0 := nth l 36 == 1
    frameOut := frame }

theorem Ppu.ofNumbers_numbers (p : Ppu) :
    Ppu.ofNumbers p.numbers (cellNumbers p.pal) (cellNumbers p.nt) (cellNumbers p.oam) (p.oam2.toList.map BitVec.toNat)
      (p.slots.toList.map SpriteSlot.number) p.frameOut = p := by
  have h2 : (Vector.ofFn fun i : Fin 32 => BitVec.ofNat 8 (nth (p.oam2.toList.map BitVec.toNat) i)) = p.oam2 := by
    apply Vector.ext; intro i hi; simp [nth]
  have h3 : (Vector.ofFn fun i : Fin 8 => SpriteSlot.ofNumber (nth (p.slots.toList.map SpriteSlot.number) i)) = p.slots := by
    apply Vector.ext; intro i hi; simp [nth, SpriteSlot.ofNumber_number]
  unfold Ppu.ofNumbers
  rw [h2, h3]
  simp [Ppu.numbers, cellsOf_cellNumbers]

/-- The mappers, mirrorings and bank modes, by number. -/
def mapperCodes : List Mapper := [.nrom, .mmc1, .uxrom, .cnrom]
def mirroringCodes : List Mirroring := [.singleLower, .singleUpper, .horizontal, .vertical, .fourScreen]
def prgModeCodes : List PrgMode := [.switch32, .fixFirst, .fixSecond]
def chrModeCodes : List ChrMode := [.full8, .two4]

/-- The registers and facts of a cartridge as numbers. -/
def Cart.numbers (c : Cart) : List Nat :=
  [mapperCodes.idxOf c.mapper, c.prgBanks16, c.chrBanks8, c.chrIsRam.toNat, c.prgRamPresent.toNat,
   mirroringCodes.idxOf c.headerMirroring, c.mmc1.shift.toNat, prgModeCodes.idxOf c.mmc1.prgMode,
   chrModeCodes.idxOf c.mmc1.chrMode, mirroringCodes.idxOf c.mmc1.mirroring, c.mmc1.prgBank.toNat, c.mmc1.chr0.toNat,
   c.mmc1.chr1.toNat, c.uxromBank.toNat, c.cnromBank.toNat]

/-- A cartridge from its numbers and memories. -/
def Cart.ofNumbers (l prgRom chr prgRam : List Nat) : Cart :=
  { mapper := mapperCodes.getD (nth l 0) .nrom, prgRom := cellsOf 8 prgRom, prgBanks16 := nth l 1
    chr := cellsOf 8 chr, chrBanks8 := nth l 2, chrIsRam := nth l 3 == 1, prgRam := cellsOf 8 prgRam
    prgRamPresent := nth l 4 == 1, headerMirroring := mirroringCodes.getD (nth l 5) .horizontal
    mmc1 :=
      { shift := BitVec.ofNat 5 (nth l 6), prgMode := prgModeCodes.getD (nth l 7) .switch32
        chrMode := chrModeCodes.getD (nth l 8) .full8, mirroring := mirroringCodes.getD (nth l 9) .horizontal
        prgBank := BitVec.ofNat 4 (nth l 10), chr0 := BitVec.ofNat 5 (nth l 11), chr1 := BitVec.ofNat 5 (nth l 12) }
    uxromBank := BitVec.ofNat 8 (nth l 13), cnromBank := BitVec.ofNat 8 (nth l 14) }

theorem Cart.ofNumbers_numbers (c : Cart) :
    Cart.ofNumbers c.numbers (cellNumbers c.prgRom) (cellNumbers c.chr) (cellNumbers c.prgRam) = c := by
  have h1 : ∀ m, mapperCodes.getD (mapperCodes.idxOf m) .nrom = m := fun m => by cases m <;> rfl
  have h2 : ∀ m, mirroringCodes.getD (mirroringCodes.idxOf m) .horizontal = m := fun m => by cases m <;> rfl
  have h3 : ∀ m, prgModeCodes.getD (prgModeCodes.idxOf m) .switch32 = m := fun m => by cases m <;> rfl
  have h4 : ∀ m, chrModeCodes.getD (chrModeCodes.idxOf m) .full8 = m := fun m => by cases m <;> rfl
  simp only [Cart.ofNumbers, Cart.numbers, nth, List.getD_cons_zero, List.getD_cons_succ, h1, h2, h3, h4]
  simp [cellsOf_cellNumbers]

/-- The controllers as numbers. -/
def Pads.numbers (p : Pads) : List Nat :=
  [p.localButtons.toNat, p.committed1.toNat, p.committed2.toNat, p.strobe.toNat, p.shift1.toNat, p.shift2.toNat]

/-- The controllers from their numbers. -/
def Pads.ofNumbers (l : List Nat) : Pads :=
  { localButtons := BitVec.ofNat 8 (nth l 0), committed1 := BitVec.ofNat 8 (nth l 1)
    committed2 := BitVec.ofNat 8 (nth l 2), strobe := nth l 3 == 1, shift1 := BitVec.ofNat 8 (nth l 4)
    shift2 := BitVec.ofNat 8 (nth l 5) }

theorem Pads.ofNumbers_numbers (p : Pads) : Pads.ofNumbers p.numbers = p := by simp [Pads.ofNumbers, Pads.numbers]

/-- A line of pixels as numbers, its line number first. -/
def lineNumbers (l : Nat × PixelLine) : List Nat := l.1 :: cellNumbers l.2

/-- A line of pixels from its numbers. -/
def lineOf (l : List Nat) : Nat × PixelLine := (nth l 0, cellsOf 32 l.tail)

/-- A snapshot as lists of numbers. -/
def Snapshot.numbers (s : Snapshot) : List (List Nat) :=
  [s.cpu.numbers, s.ppu.numbers, cellNumbers s.ppu.pal, cellNumbers s.ppu.nt, cellNumbers s.ppu.oam,
   s.ppu.oam2.toList.map BitVec.toNat, s.ppu.slots.toList.map SpriteSlot.number, s.cart.numbers,
   cellNumbers s.cart.prgRom, cellNumbers s.cart.chr, cellNumbers s.cart.prgRam, cellNumbers s.wram, s.pads.numbers]
    ++ s.ppu.frameOut.map lineNumbers

/-- A snapshot from its lists of numbers. -/
def Snapshot.ofNumbers (n : List (List Nat)) : Snapshot :=
  { cpu := Cpu.ofNumbers (nths n 0)
    ppu := Ppu.ofNumbers (nths n 1) (nths n 2) (nths n 3) (nths n 4) (nths n 5) (nths n 6) ((n.drop 13).map lineOf)
    cart := Cart.ofNumbers (nths n 7) (nths n 8) (nths n 9) (nths n 10)
    wram := cellsOf 8 (nths n 11)
    pads := Pads.ofNumbers (nths n 12) }

theorem Snapshot.ofNumbers_numbers (s : Snapshot) : Snapshot.ofNumbers s.numbers = s := by
  have hf : (s.ppu.frameOut.map lineNumbers).map lineOf = s.ppu.frameOut := by
    rw [List.map_map]
    refine (List.map_congr_left fun l _ => ?_).trans (List.map_id _)
    simp [lineOf, lineNumbers, cellsOf_cellNumbers]
  have hd : s.numbers.drop 13 = s.ppu.frameOut.map lineNumbers := rfl
  unfold Snapshot.ofNumbers
  rw [hd, hf]
  simp only [Snapshot.numbers, List.cons_append, nths, List.getD_cons_zero, List.getD_cons_succ,
    Cpu.ofNumbers_numbers, Ppu.ofNumbers_numbers, Cart.ofNumbers_numbers, Pads.ofNumbers_numbers, cellsOf_cellNumbers]

/-- A snapshot as bytes, in the plain layout: as many as its number. -/
def Snapshot.plainBytes (s : Snapshot) : List Byte := List.replicate (Encodable.encode s.numbers) 0

/-- A snapshot from bytes in the plain layout. -/
def Snapshot.ofPlainBytes (b : List Byte) : Option Snapshot :=
  (Encodable.decode (α := List (List Nat)) b.length).map Snapshot.ofNumbers

theorem Snapshot.ofPlainBytes_plainBytes (s : Snapshot) : Snapshot.ofPlainBytes s.plainBytes = some s := by
  simp [Snapshot.ofPlainBytes, Snapshot.plainBytes, Snapshot.ofNumbers_numbers]

-- The format.

/-- From a snapshot to its bytes. -/
abbrev SnapshotEncoder := Snapshot → List Byte

/-- From bytes to the snapshot they stand for, or `none` where they are none. -/
abbrev SnapshotDecoder := List Byte → Option Snapshot

/-- A byte layout of snapshots: complete, since decoding what was encoded gives every element back (10 R63, 70 R399). -/
structure SnapshotFormat where
  encode : SnapshotEncoder := Snapshot.plainBytes
  decode : SnapshotDecoder := Snapshot.ofPlainBytes
  roundTrip : ∀ s, decode (encode s) = some s := by exact Snapshot.ofPlainBytes_plainBytes
  deriving Inhabited

end Sys2Proof.Machine

namespace Sys2Proof

/-- SNAPSHOT_FORMAT (00 R9, D63). OPEN: nothing is known of it but its round trip, and that bytes which are no encoding
may or may not decode (log 10). -/
opaque Config.snapshotFormat : Machine.SnapshotFormat

end Sys2Proof
end

