-- ==== Sys2Proof/Machine/HostPort.lean ====
section
/-! DEFINITION. The host between frames (70 R396, R398): its requests, the button commit, and the two ends of
run_one_frame. -/

namespace Sys2Proof.Machine

/-- An answer recorded, newest first (log 12). -/
def State.reply (s : State) (r : HostReply) : State := { s with port := { s.port with replies := r :: s.port.replies } }

/-- The whole state replaced by a snapshot's; what the host has queued is not the core's state and stays (70 R399,
log 22). -/
def State.restoreFrom (s : State) (snap : Snapshot) : State :=
  { cpu := snap.cpu, ppu := snap.ppu, cart := snap.cart, wram := snap.wram, pads := snap.pads, port := s.port }

/-- A snapshot request (70 R398): the bytes of the whole state. Whether it reports an error instead (60 R366) is a free
value of the request, whose number is that of the answers before it (log 24, DESIGN CHOICE). -/
def takeSnapshot (s : State) : State :=
  if Config.snapshotError s.port.replies.length then s.reply .snapshotFailed
  else s.reply (.snapshot (Config.snapshotFormat.encode s.snapshot))

/-- A restore request (70 R398, R399): bytes that are no snapshot leave the state unchanged (60 R366). -/
def restoreBytes (s : State) (bytes : List Byte) : State :=
  match Config.snapshotFormat.decode bytes with
  | some snap => (s.restoreFrom snap).reply .done
  | none => s.reply .restoreFailed

/-- One host request (70 R398): a refused swap keeps the old cartridge (60 R366). Whether a snapshot reports an error is
log 24's free value. -/
def applyRequest (s : State) (q : HostRequest) : State :=
  match q with
  | .reset => (machineReset s).reply .done
  | .swap image =>
    match Cart.ofINes image with
    | .ok c => (machineReset { s with cart := c }).reply .done
    | .error e => s.reply (.loadFailed e)
  | .restore bytes => restoreBytes s bytes
  | .snapshot => takeSnapshot s

/-- The requests of one poll, in the order received (70 R398). -/
def applyRequests : List HostRequest → State → State
  | [], s => s
  | q :: qs, s => applyRequests qs (applyRequest s q)

/-- `commit_buttons()` (70 R398): each player's committed state becomes the delivered one; without a delivery they
stay (log 11). -/
def Pads.commit (p : Pads) (q : HostPoll) : Pads :=
  let p := { p with localButtons := q.localButtons.getD p.localButtons }
  match q.buttons with
  | some b => { p with committed1 := b.1, committed2 := b.2 }
  | none => p

/-- One poll: requests, then buttons (70 R396). -/
def State.poll (s : State) (q : HostPoll) : State :=
  let t := applyRequests q.requests s
  { t with pads := t.pads.commit q }

/-- The start of run_one_frame (70 R396), at a group that opens a frame: the next poll is taken, if the host has one
ready (log 11). -/
def openFrame (s : State) : State :=
  if s.port.betweenFrames then
    match s.port.polls with
    | [] => { s with port := { s.port with betweenFrames := false } }
    | q :: rest => State.poll { s with port := { s.port with polls := rest, betweenFrames := false } } q
  else s

/-- The end of run_one_frame (70 R396), tested after a whole group: `until frame_ready; frame_ready <- false`. -/
def closeFrame (s : State) : State :=
  if s.ppu.frameReady then
    { s with ppu := { s.ppu with frameReady := false }, port := { s.port with betweenFrames := true } }
  else s

end Sys2Proof.Machine
end

