-- ==== Sys2Proof/Machine/PpuPipeline.lean ====
section
/-! DEFINITION. The PPU's dot: background pipeline, sprites, pixel composition, vblank, frame timing (51 R310 to R342).
Everything here reads the cartridge and the PPU and answers the PPU; the NMI line is the caller's (ppuTick). -/

namespace Sys2Proof.Machine

/-- `rendering_enabled()` (51 R311). -/
def Ppu.rendering (p : Ppu) : Bool := p.mask.showBg || p.mask.showSpr

/-- Dot 1 of line -1 clears the three status flags (51 R313). -/
def Ppu.clearStatus (p : Ppu) : Ppu := { p with status := ⟨false, false, false⟩ }

-- Background pipeline.

/-- `shift_background()` (51 R314). -/
def Ppu.shiftBackground (p : Ppu) : Ppu :=
  { p with bgPatLo := p.bgPatLo <<< 1, bgPatHi := p.bgPatHi <<< 1, bgAttrLo := p.bgAttrLo <<< 1,
           bgAttrHi := p.bgAttrHi <<< 1 }

/-- The low byte of a shift register replaced (51 R316). -/
def loadLow (reg : BitVec 16) (b : Byte) : BitVec 16 := (reg &&& 0xFF00) ||| b.zeroExtend 16

/-- One attribute bit across a byte (51 R316, D52). -/
def spread (b : Bool) : Byte := if b then 0xFF else 0x00

/-- The nametable address of `v` (51 R316, D26). -/
def tileAddr (v : BitVec 15) : Addr := 0x2000 ||| (vWide v &&& 0x0FFF)

/-- The attribute address of `v` (51 R317). -/
def attrAddr (v : BitVec 15) : Addr :=
  0x23C0 ||| (vWide v &&& 0x0C00) ||| ((vWide v >>> 4) &&& 0x38) ||| ((vWide v >>> 2) &&& 0x07)

/-- The quadrant shift `s` of `v` (51 R317, D26). -/
def attrShift (v : BitVec 15) : Nat := (((vWide v >>> 4) &&& 4) ||| (vWide v &&& 2)).toNat

/-- The address of the current row of the latched tile's low plane (51 R318, D26). -/
def Ppu.patternAddr (p : Ppu) : Addr :=
  (if p.ctrl.bgTable then 0x1000 else 0x0000) + 16 * p.latTile.zeroExtend 16 + ((vWide p.v >>> 12) &&& 7)

/-- Step 0: reload the shift registers, then fetch the tile number (51 R316). -/
def Ppu.fetchTile (c : Cart) (p : Ppu) : Ppu :=
  { p with
    bgPatLo := loadLow p.bgPatLo p.latPatLo
    bgPatHi := loadLow p.bgPatHi p.latPatHi
    bgAttrLo := loadLow p.bgAttrLo (spread (p.latAttr.getLsbD 0))
    bgAttrHi := loadLow p.bgAttrHi (spread (p.latAttr.getLsbD 1))
    latTile := ppuBusRead c p (tileAddr p.v) }

/-- Step 2: the attribute (51 R317). -/
def Ppu.fetchAttr (c : Cart) (p : Ppu) : Ppu :=
  { p with latAttr := (ppuBusRead c p (attrAddr p.v) >>> attrShift p.v).extractLsb' 0 2 }

/-- Step 4: pattern low (51 R318). -/
def Ppu.fetchPatLo (c : Cart) (p : Ppu) : Ppu := { p with latPatLo := ppuBusRead c p p.patternAddr }

/-- Step 6: pattern high (51 R318). -/
def Ppu.fetchPatHi (c : Cart) (p : Ppu) : Ppu := { p with latPatHi := ppuBusRead c p (p.patternAddr + 8) }

/-- `increment_x` on v (51 R319, D27). -/
def incrementX (v : BitVec 15) : BitVec 15 :=
  if v &&& 0x001F = 31 then (v &&& ~~~0x001F#15) ^^^ 0x0400 else v + 1

/-- `increment_y` on v (51 R320). -/
def incrementY (v : BitVec 15) : BitVec 15 :=
  if v &&& 0x7000 ≠ 0x7000 then v + 0x1000
  else
    let v1 := v &&& ~~~0x7000#15
    let y := (v1 &&& 0x03E0) >>> 5
    let (y', v2) :=
      if y = 29 then ((0 : BitVec 15), v1 ^^^ 0x0800)
      else if y = 31 then (0, v1)
      else (y + 1, v1)
    (v2 &&& ~~~0x03E0#15) ||| (y' <<< 5)

/-- `copy_horizontal()` (51 R321). -/
def Ppu.copyHorizontal (p : Ppu) : Ppu := { p with v := (p.v &&& ~~~0x041F#15) ||| (p.t &&& 0x041F) }

/-- `copy_vertical()` (51 R321). -/
def Ppu.copyVertical (p : Ppu) : Ppu := { p with v := (p.v &&& ~~~0x7BE0#15) ||| (p.t &&& 0x7BE0) }

/-- `fetch_step(k, R)` (51 R315). -/
def Ppu.fetchStep (c : Cart) (k : Nat) (r : Bool) (p : Ppu) : Ppu :=
  match k with
  | 0 => p.fetchTile c
  | 2 => p.fetchAttr c
  | 4 => p.fetchPatLo c
  | 6 => p.fetchPatHi c
  | 7 => if r then { p with v := incrementX p.v } else p
  | _ => p

-- Sprites.

/-- `clear_secondary_oam()` (51 R325). -/
def Ppu.clearSecondaryOam (p : Ppu) : Ppu :=
  { p with oam2 := Vector.replicate 32 0xFF, oam2Count := 0, sprite0InSecondary := false }

/-- The sprite height `h` (51 R323, R326). -/
def Ppu.spriteHeight (p : Ppu) : Int := if p.ctrl.spr16 then 16 else 8

/-- Byte `j` of OAM record `i` (10 R34). -/
def Ppu.oamByte (p : Ppu) (i j : Nat) : Byte := p.oam.read (4 * i + j)

/-- Record `i` is in range for the line after `l` (51 R326, D24). -/
def Ppu.inRange (p : Ppu) (l : Int) (i : Nat) : Bool :=
  let d := l - (p.oamByte i 0).toNat
  decide (0 ≤ d) && decide (d < p.spriteHeight)

/-- Record `i` copied into record `n` of secondary OAM (51 R326). -/
def Ppu.copyRecord (p : Ppu) (i n : Nat) : Vector Byte 32 :=
  (((p.oam2.setIfInBounds (4 * n) (p.oamByte i 0)).setIfInBounds (4 * n + 1) (p.oamByte i 1)).setIfInBounds
    (4 * n + 2) (p.oamByte i 2)).setIfInBounds (4 * n + 3) (p.oamByte i 3)

/-- The scan of 51 R326 over the records still to be looked at, `n` records having been copied: it stops at the ninth
in-range record. -/
def Ppu.scanOam (l : Int) : List Nat → Nat → Ppu → Ppu
  | [], n, p => { p with oam2Count := n }
  | i :: rest, n, p =>
    if p.inRange l i then
      if n < 8 then
        Ppu.scanOam l rest (n + 1)
          { p with oam2 := p.copyRecord i n, sprite0InSecondary := p.sprite0InSecondary || i == 0 }
      else
        { p with oam2Count := n
                 status := { p.status with sprOverflow := p.status.sprOverflow || p.rendering } }
    else Ppu.scanOam l rest n p

/-- `evaluate_sprites(L)` (51 R326). -/
def Ppu.evaluateSprites (l : Int) (p : Ppu) : Ppu := Ppu.scanOam l (List.range 64) 0 p

/-- `sprite_pattern_addr(tile, row)` (51 R324), the sum taken modulo 2^16; the bus then masks it (50 R280). A row
outside 0..h-1 can only come of changing the sprite height between dots 65 and 257 (log 19). -/
def Ppu.spritePatternAddr (p : Ppu) (tile : Byte) (row : Int) : Addr :=
  if p.ctrl.spr16 = false then
    BitVec.ofInt 16 ((if p.ctrl.sprTable then 0x1000 else 0) + 16 * (tile.toNat : Int) + row)
  else
    let base : Int := if tile.getLsbD 0 then 0x1000 else 0
    let t : Int := ((tile &&& 0xFE).toNat : Int)
    if 8 ≤ row then BitVec.ofInt 16 (base + 16 * (t + 1) + (row - 8))
    else BitVec.ofInt 16 (base + 16 * t + row)

/-- Byte `j` of record `k` of secondary OAM (10 R35). -/
def Ppu.oam2Byte (p : Ppu) (k j : Nat) : Byte := p.oam2.getD (4 * k + j) 0xFF

/-- Slot `k` as `sprite_fetch(L)` loads it (51 R323). -/
def Ppu.fetchSlot (c : Cart) (l : Int) (p : Ppu) (k : Nat) : SpriteSlot :=
  if l = -1 ∨ p.oam2Count ≤ k then SpriteSlot.transparent
  else
    let at' := p.oam2Byte k 2
    let row0 := l - (p.oam2Byte k 0).toNat
    let row := if at'.getLsbD 7 then p.spriteHeight - 1 - row0 else row0
    let a := p.spritePatternAddr (p.oam2Byte k 1) row
    let lo := ppuBusRead c p a
    let hi := ppuBusRead c p (a + 8)
    if at'.getLsbD 6 then ⟨reverse8 lo, reverse8 hi, at', p.oam2Byte k 3⟩
    else ⟨lo, hi, at', p.oam2Byte k 3⟩

/-- `sprite_fetch(L)` (51 R323). -/
def Ppu.spriteFetch (c : Cart) (l : Int) (p : Ppu) : Ppu :=
  let f := Ppu.fetchSlot c l p
  { p with
    slots := #v[f 0, f 1, f 2, f 3, f 4, f 5, f 6, f 7]
    sprite0InScanline := decide (l ≠ -1) && p.sprite0InSecondary }

/-- One slot of `update_sprite_counters()` (51 R330). -/
def SpriteSlot.tick (s : SpriteSlot) : SpriteSlot :=
  if s.x ≠ 0 then { s with x := s.x - 1 } else { s with lo := s.lo <<< 1, hi := s.hi <<< 1 }

/-- `update_sprite_counters()` (51 R330). -/
def Ppu.updateSpriteCounters (p : Ppu) : Ppu := { p with slots := p.slots.map SpriteSlot.tick }

-- Pixel composition.

/-- Two pattern bits as a 2-bit number, `(2 if hi) | (1 if lo)` (51 R329, R330). -/
def twoBits (hi lo : Bool) : BitVec 2 := BitVec.ofBool hi ++ BitVec.ofBool lo

/-- The background pixel and palette at column `x` (51 R329). -/
def Ppu.bgPixel (p : Ppu) (x : Nat) : BitVec 2 × BitVec 2 :=
  if p.mask.showBg && (decide (8 ≤ x) || p.mask.showBgLeft) then
    let k := 15 - p.x.toNat
    (twoBits (p.bgPatHi.getLsbD k) (p.bgPatLo.getLsbD k), twoBits (p.bgAttrHi.getLsbD k) (p.bgAttrLo.getLsbD k))
  else (0, 0)

/-- What a sprite contributes to a pixel (51 R330). -/
structure SpritePixel where
  pix : BitVec 2
  pal : BitVec 2
  behind : Bool
  sprite0 : Bool
  deriving DecidableEq, Repr

/-- No sprite pixel: `spr_pix <- 0; rendering_sprite0 <- false` (51 R330). -/
def SpritePixel.none : SpritePixel := ⟨0, 0, false, false⟩

/-- The colour index of a slot at the current dot. -/
def SpriteSlot.pixel (s : SpriteSlot) : BitVec 2 := twoBits (s.hi.getLsbD 7) (s.lo.getLsbD 7)

/-- The first slot, from slot number `k` on, with X-counter 0 and a non-zero colour (51 R330). -/
def firstSprite (inScanline : Bool) : Nat → List SpriteSlot → SpritePixel
  | _, [] => SpritePixel.none
  | k, s :: rest =>
    if s.x = 0 ∧ s.pixel ≠ 0 then ⟨s.pixel, s.attr.extractLsb' 0 2, s.attr.getLsbD 5, k == 0 && inScanline⟩
    else firstSprite inScanline (k + 1) rest

/-- The sprite pixel at column `x` (51 R330). -/
def Ppu.spritePixel (p : Ppu) (x : Nat) : SpritePixel :=
  if p.mask.showSpr && (decide (8 ≤ x) || p.mask.showSprLeft) then
    firstSprite p.sprite0InScanline 0 p.slots.toList
  else SpritePixel.none

/-- The palette address of a pixel (51 R331). -/
def pixelAddr (bgPix bgPal : BitVec 2) (s : SpritePixel) : Addr :=
  let bgAddr : Addr := 0x3F00 + 4 * bgPal.zeroExtend 16 + bgPix.zeroExtend 16
  let sprAddr : Addr := 0x3F10 + 4 * s.pal.zeroExtend 16 + s.pix.zeroExtend 16
  if bgPix = 0 ∧ s.pix = 0 then 0x3F00
  else if bgPix = 0 then sprAddr
  else if s.pix = 0 then bgAddr
  else if s.behind then bgAddr else sprAddr

/-- The sprite-0 hit test (51 R332). -/
def Ppu.spr0Hits (p : Ppu) (bgPix : BitVec 2) (s : SpritePixel) (x : Nat) (l : Int) : Bool :=
  decide (bgPix ≠ 0) && decide (s.pix ≠ 0) && s.sprite0 && p.mask.showBg && p.mask.showSpr && decide (x ≠ 255)
    && decide (l ≠ 0)

/-- The colour index of a palette address, with the grayscale effect (51 R333). -/
def Ppu.colour (c : Cart) (p : Ppu) (a : Addr) : BitVec 6 :=
  let i := (ppuBusRead c p a).extractLsb' 0 6
  if p.mask.grayscale then Config.grayscaleEffect i else i

/-- The pixel of a colour index, ARGB with alpha $FF (51 R334). -/
def argb (emphasis : BitVec 3) (i : BitVec 6) : BitVec 32 :=
  let e := 3 * (64 * emphasis.toNat + i.toNat)
  (0xFF : Byte) ++ Config.ntscPalette e ++ Config.ntscPalette (e + 1) ++ Config.ntscPalette (e + 2)

/-- `render_pixel(x, L)` (51 R328 to R334). -/
def Ppu.renderPixel (c : Cart) (x : Nat) (l : Int) (p : Ppu) : Ppu :=
  let (bgPix, bgPal) := p.bgPixel x
  let s := p.spritePixel x
  let i := p.colour c (pixelAddr bgPix bgPal s)
  { p with
    renderingSprite0 := s.sprite0
    status := { p.status with spr0Hit := p.status.spr0Hit || p.spr0Hits bgPix s x l }
    frameOut := p.frameOut.write l.toNat x (argb p.mask.emphasis i) }

-- The dot.

/-- The dots on which the background pipeline runs (51 R310, R314). -/
def fetchDot (d : Nat) : Bool := (1 ≤ d && d ≤ 256) || (321 ≤ d && d ≤ 336)

/-- Dots 1..256 and 321..336: shift, then the fetch step (51 R310). -/
def Ppu.backgroundDot (c : Cart) (d : Nat) (r : Bool) (p : Ppu) : Ppu :=
  if fetchDot d then p.shiftBackground.fetchStep c ((d - 1) % 8) r else p

/-- Dot 256: the vertical increment (51 R320). -/
def Ppu.verticalDot (d : Nat) (r : Bool) (p : Ppu) : Ppu :=
  if d = 256 ∧ r then { p with v := incrementY p.v } else p

/-- Dot 257: the horizontal copy, then the sprite fetch (51 R310, R321, R323). -/
def Ppu.dot257 (c : Cart) (l : Int) (d : Nat) (r : Bool) (p : Ppu) : Ppu :=
  if d = 257 then Ppu.spriteFetch c l (if r then p.copyHorizontal else p) else p

/-- Dots 280..304 of line -1: the vertical copy (51 R321). -/
def Ppu.copyDot (l : Int) (d : Nat) (r : Bool) (p : Ppu) : Ppu :=
  if l = -1 ∧ 280 ≤ d ∧ d ≤ 304 ∧ r then p.copyVertical else p

/-- Dots 257..320: OAMADDR is forced to 0 (51 R322). -/
def Ppu.oamAddrDot (d : Nat) (r : Bool) (p : Ppu) : Ppu :=
  if 257 ≤ d ∧ d ≤ 320 ∧ r then { p with oamaddr := 0 } else p

/-- Dots 1..256 of a visible line: the pixel, then the sprite counters (51 R310). -/
def Ppu.pixelDot (c : Cart) (l : Int) (d : Nat) (p : Ppu) : Ppu :=
  if 0 ≤ l ∧ 1 ≤ d ∧ d ≤ 256 then (p.renderPixel c (d - 1) l).updateSpriteCounters else p

/-- The actions of a dot of a rendering line, in the order of 51 R310. -/
def Ppu.renderingLineDot (c : Cart) (l : Int) (d : Nat) (r : Bool) (p : Ppu) : Ppu :=
  let p := if 0 ≤ l ∧ d = 1 then p.clearSecondaryOam else p
  let p := p.backgroundDot c d r
  let p := p.verticalDot d r
  let p := p.dot257 c l d r
  let p := p.copyDot l d r
  let p := p.oamAddrDot d r
  let p := if 0 ≤ l ∧ d = 65 then p.evaluateSprites l else p
  p.pixelDot c l d

/-- The dot that enters vertical blank, (241, 1) (51 R335). -/
def Ppu.atVblank (p : Ppu) : Bool := decide (p.scanline = 241) && p.dot == 1

/-- `advance()` (51 R336, R337). -/
def Ppu.advance (p : Ppu) : Ppu :=
  let d := p.dot + 1
  let d := if p.scanline = -1 ∧ d = 340 ∧ p.frame % 2 = 1 ∧ p.rendering then 341 else d
  if d = 341 then
    if p.scanline + 1 = 261 then { p with dot := 0, scanline := -1, frame := p.frame + 1, frameReady := true }
    else { p with dot := 0, scanline := p.scanline + 1 }
  else { p with dot := d }

/-- The actions of the current dot, without the NMI line and before the advance (51 R310). -/
def Ppu.dotActions (c : Cart) (p : Ppu) : Ppu :=
  let l := p.scanline
  let d := p.dot
  let r := p.rendering
  let p := if l = -1 ∧ d = 1 then p.clearStatus else p
  let p := if -1 ≤ l ∧ l ≤ 239 then p.renderingLineDot c l d r else p
  if l = 241 ∧ d = 1 then { p with status := { p.status with vblank := true } } else p

/-- One PPU tick: the dot's actions, the NMI request at vblank entry when it is enabled (51 R335, 60 R350), and the
advance (51 R310). -/
def ppuTick (s : State) : State :=
  let nmi := s.ppu.atVblank && s.ppu.ctrl.nmiEnable
  { s with
    ppu := (s.ppu.dotActions s.cart).advance
    cpu := { s.cpu with nmiPending := s.cpu.nmiPending || nmi } }

end Sys2Proof.Machine
end

