-- ==== Sys2Proof/Machine/Tick.lean ====
section
/-! DEFINITION. Fetching an instruction, one CPU tick (40 R160, R161), one DMA cycle (20 R84), one group (70 R395), the
frame loop around it (70 R396), and where the loader puts a program's bytes. -/

namespace Sys2Proof.Machine

/-- The next byte at PC by one bus read, PC advancing (40 R162). -/
def fetchByte (s : State) : Byte × State :=
  let r := memRead s s.cpu.pc
  (r.1, r.2.advancePc 1)

/-- The operand byte of an immediate *NOP: PC passes it and no bus read is made (46 R272, 40 R169, R180). Its value,
which nothing uses, is seen without a read (log 5). -/
def skipByte (s : State) : Byte × State := (peek s s.cpu.pc, s.advancePc 1)

/-- The opcode and operand bytes of the next instruction, read in order (40 R161, R162, R169 to R179). -/
def fetch (s : State) : Instr × State :=
  let op := fetchByte s
  match (opInfo op.1).mode.operandBytes with
  | 0 => (decodeOp op.1 0 0, op.2)
  | 1 =>
    let b := if (opInfo op.1).mnemonic = .nopU ∧ (opInfo op.1).mode = .imm then skipByte op.2 else fetchByte op.2
    (decodeOp op.1 b.1 0, b.2)
  | _ =>
    let l := fetchByte op.2
    let h := fetchByte l.2
    (decodeOp op.1 l.1 h.1, h.2)

/-- `execute_instruction()` (40 R161). -/
def executeInstruction (s : State) : Result :=
  let f := fetch s
  exec f.1 f.2

/-- `dma_cycle()` (20 R84). -/
def dmaCycle (s : State) : State :=
  let r := s.cpu.dmaRemaining
  let t :=
    if r ≤ 512 then
      let j := 512 - r
      if j % 2 = 0 then
        let b := memRead s (w16 s.cpu.dmaPage (BitVec.ofNat 8 (j / 2)))
        { b.2 with cpu := { b.2.cpu with dmaBuffer := b.1 } }
      else memWrite s 0x2004 s.cpu.dmaBuffer
    else s
  { t with cpu := { t.cpu with dmaRemaining := r - 1 } }

/-- `cycle_count <- cycle_count + 1` (40 R160). -/
def countTick (s : State) : State := { s with cpu := { s.cpu with cycleCount := s.cpu.cycleCount + 1 } }

/-- `cycles_until_next <- cycles_until_next - 1`, then the tick is counted (40 R160). -/
def countDown (s : State) : State :=
  countTick { s with cpu := { s.cpu with cyclesUntilNext := s.cpu.cyclesUntilNext - 1 } }

/-- Go on from a next state; a stop stays a stop. -/
def andThen (r : Result) (f : State → State) : Result :=
  match r with
  | .next t => .next (f t)
  | .fault e => .fault e
  | .refused e => .refused e

/-- `cpu_tick()` (40 R160; the priorities of 60 R356). -/
def cpuTick (s : State) : Result :=
  if 0 < s.cpu.dmaRemaining then .next (countTick (dmaCycle s))
  else if s.cpu.cyclesUntilNext.toInt ≤ 0 then
    if s.cpu.nmiPending then .next (countDown (nmiEntry s))
    else andThen (executeInstruction s) countDown
  else .next (countDown s)

/-- The three dots before a CPU tick (70 R395). -/
def threeDots (s : State) : State := ppuTick (ppuTick (ppuTick s))

/-- `group()` (70 R395). -/
def group (s : State) : Result := cpuTick (threeDots s)

/-- One group within the frame loop of 70 R396: the model's step (log 1). -/
def masterStep (s : State) : Result := andThen (group (openFrame s)) closeFrame

-- Where a program's bytes are put from outside the machine (log 3).

/-- The loader can place a byte at `a`: work RAM, PRG-RAM that is present, or PRG-ROM. -/
def State.loadable (s : State) (a : Addr) : Bool :=
  decide (a.toNat < 0x2000) || (decide (0x6000 ≤ a.toNat) && decide (a.toNat < 0x8000) && s.cart.prgRamPresent)
    || decide (0x8000 ≤ a.toNat)

/-- The state with the byte that the bus reads at a loadable address replaced, as an image loaded from outside holds
it: no bus write is made. -/
def State.placeByte (s : State) (a : Addr) (b : Byte) : State :=
  if a.toNat < 0x2000 then { s with wram := s.wram.write (wramIndex a) b }
  else if a.toNat < 0x8000 then { s with cart := { s.cart with prgRam := s.cart.prgRam.write (s.cart.ramOffset a) b } }
  else { s with cart := { s.cart with prgRom := s.cart.prgRom.write (s.cart.prgOffset a) b } }

/-- The next group is not a frame's first with a poll to take, and its CPU tick is an instruction boundary without an
NMI or a DMA. -/
def State.atBoundary (s : State) : State :=
  { s with
    cpu := { s.cpu with cyclesUntilNext := 0, dmaRemaining := 0, nmiPending := false }
    ppu := if (threeDots { s with cpu := { s.cpu with nmiPending := false } }).cpu.nmiPending then
        { s.ppu with ctrl := { s.ppu.ctrl with nmiEnable := false } }
      else s.ppu
    port := if s.port.polls.isEmpty then s.port else { s.port with betweenFrames := false } }

/-- PC where the loader can place three bytes: kept if it can, else 0. -/
def State.loadablePc (s : State) : Addr :=
  let pc := s.cpu.pc
  if s.loadable pc && s.loadable (pc + 1) && s.loadable (pc + 2) then pc else 0

/-- Three bytes placed where the next instruction is fetched, the machine being at an instruction boundary. -/
def State.withProgramBytes (s : State) (b0 b1 b2 : Byte) : State :=
  let pc := s.loadablePc
  let t := s.atBoundary.setPc pc
  ((t.placeByte pc b0).placeByte (pc + 1) b1).placeByte (pc + 2) b2

end Sys2Proof.Machine
end

