-- ==== Sys2Proof/Machine/Step.lean ====
section
/-! DEFINITION. The step of the machine, and where the host places one instruction for it. -/

namespace Sys2Proof.Machine

/-- One step: one group, three PPU ticks and one CPU tick, within the frame loop (70 R395, R396; log 1). -/
def step (s : State) : Host.Outcome State Fault Refusal := masterStep s

/-- `s` with the instruction whose bits are `w` where the next step fetches (log 3). -/
def State.withFetchWord (s : State) (nbits w : Nat) : State :=
  s.withProgramBytes (tableByte nbits w 0) (tableByte nbits w 1) (tableByte nbits w 2)

end Sys2Proof.Machine
end

