-- ==== Sys2Proof/Machine/Run.lean ====
section
/-! DEFINITION. Runs: a call of run_one_frame as whole groups (70 R396), and a run up to END_OF_RUN (70 R400). -/

namespace Sys2Proof.Machine

/-- END_OF_RUN (00 R9, 70 R400, D62): a number of calls of run_one_frame, or of CPU ticks. -/
inductive EndOfRun where
  | frames (n : Nat)
  | ticks (n : Nat)
  deriving DecidableEq, Repr

/-- `n` groups. -/
def runTicks : Nat → State → Result
  | 0, s => .next s
  | n + 1, s =>
    match masterStep s with
    | .next t => runTicks n t
    | .fault e => .fault e
    | .refused e => .refused e

/-- Groups until a frame call returns, `n` at the most. -/
def untilReturn : Nat → State → Result
  | 0, s => .next s
  | n + 1, s =>
    match masterStep s with
    | .next t => if t.port.betweenFrames then .next t else untilReturn n t
    | .fault e => .fault e
    | .refused e => .refused e

/-- The groups of the longest frame call (70 R396): 89,342 dots at three a group. -/
def groupsPerFrame : Nat := 29781

/-- `run_one_frame()` (70 R396). -/
def runOneFrame (s : State) : Result := untilReturn groupsPerFrame s

/-- `n` calls of run_one_frame. -/
def runFrames : Nat → State → Result
  | 0, s => .next s
  | n + 1, s =>
    match runOneFrame s with
    | .next t => runFrames n t
    | .fault e => .fault e
    | .refused e => .refused e

/-- A run from `s` up to its end (70 R400). -/
def runUntil (e : EndOfRun) (s : State) : Result :=
  match e with
  | .frames n => runFrames n s
  | .ticks n => runTicks n s

end Sys2Proof.Machine
end

