-- ==== Sys2Proof/Safety.lean ====
section
/-! DEFINITION. What a safe run is: every step answers a next state (60 R352), and the state keeps the ranges, canonical
forms and constant bits that file 10 gives it. -/

namespace Sys2Proof.Machine

/-- A step is safe when it goes on. -/
def Goes (r : Result) : Prop := ∃ t, r = .next t

/-- A memory of `size` bytes in canonical form. -/
abbrev Memory.holds (size : Nat) (m : Memory) : Prop := Memory.wf m ∧ Memory.below size m

/-- The CPU's registers and latches, at any moment: P.B = 0 and P.U = 1 (10 R25), at most 514 DMA cycles left, no IRQ
(10 R31, 60 R353). -/
abbrev Cpu.Ok (c : Cpu) : Prop :=
  flagOf c.p .b = false ∧ flagOf c.p .u = true ∧ c.dmaRemaining ≤ 514 ∧ c.irqPending = false

/-- The CPU between ticks: the counter stays in 0..8 (10 R29). After a tick it is at most 7, so this is the sharper
range. -/
abbrev Cpu.Inv (c : Cpu) : Prop := c.Ok ∧ 0 ≤ c.cyclesUntilNext.toInt ∧ c.cyclesUntilNext.toInt ≤ 7

/-- The PPU: its memories (10 R32 to R35), with no storage of their own behind palette entries $10, $14, $18 and $1C; its
counters (10 R36); and its frame buffer of 240 lines by 256 columns (10 R49). -/
abbrev Ppu.Inv (p : Ppu) : Prop :=
  (Memory.holds Config.palSize p.pal ∧ ∀ c ∈ p.pal, ¬(16 ≤ c.1 ∧ c.1 % 4 = 0))
    ∧ Memory.holds Config.ntSize p.nt ∧ Memory.holds Config.oamSize p.oam ∧ p.oam2Count ≤ 8
    ∧ (-1 ≤ p.scanline ∧ p.scanline ≤ 260) ∧ p.dot ≤ 340
    ∧ FrameBuffer.wf p.frameOut ∧ ∀ l ∈ p.frameOut, l.1 < 240 ∧ ∀ c ∈ l.2, c.1 < 256

/-- The cartridge: arrays of the sizes the header gives (10 R50 to R52), CHR-RAM of 8 KiB. -/
abbrev Cart.Inv (c : Cart) : Prop :=
  1 ≤ c.prgBanks16 ∧ 1 ≤ c.chrBanks8 ∧ (c.chrIsRam = true → c.chrBanks8 = 1)
    ∧ Memory.holds (Config.prgBankSize * c.prgBanks16) c.prgRom
    ∧ Memory.holds (Config.chrBankSize * c.chrBanks8) c.chr
    ∧ Memory.holds Config.prgRamSize c.prgRam

/-- What a snapshot, and the machine between steps, keeps. -/
abbrev Snapshot.Inv (s : Snapshot) : Prop :=
  s.cpu.Inv ∧ s.ppu.Inv ∧ s.cart.Inv ∧ Memory.holds Config.wramSize s.wram

/-- The snapshot a request would restore, if it is one. -/
def HostRequest.snapshot? : HostRequest → Option Snapshot
  | .restore bytes => Config.snapshotFormat.decode bytes
  | .reset | .swap _ | .snapshot => none

/-- The snapshot a reply hands out, if it is one. -/
def HostReply.snapshot? : HostReply → Option Snapshot
  | .snapshot bytes => Config.snapshotFormat.decode bytes
  | .done | .loadFailed _ | .restoreFailed | .snapshotFailed => none

/-- What the host has queued to restore, and what it has been handed, are snapshots of a machine. -/
abbrev Port.Inv (p : Port) : Prop :=
  (∀ q ∈ p.polls, ∀ r ∈ q.requests, ∀ s ∈ r.snapshot?.toList, s.Inv) ∧ ∀ r ∈ p.replies, ∀ s ∈ r.snapshot?.toList, s.Inv

/-- The invariant of the machine between steps. `frame_ready` never outlives the group that sets it (70 R396). -/
abbrev State.Inv (s : State) : Prop := s.snapshot.Inv ∧ s.port.Inv ∧ s.ppu.frameReady = false

end Sys2Proof.Machine
end

