-- ==== Sys2Proof/Certificates/Slice0/Obligations.lean ====
section
/-! DEFINITION. The statements for the provers. A statement about an instruction goes over its forms, the rows of 30 R146: the
instruction, its opcode, its addressing mode, its length, its base cycle count and whether it pays the page penalty. -/

namespace Sys2Proof.Claims

open Sys2Proof Sys2Proof.Machine

/-- A form of an instruction: its row in 30 R146. -/
structure Form where
  instr   : Instr
  opcode  : Byte
  operand : Operand
  bytes   : Nat
  base    : Nat
  page    : Bool

/-- The form's opcode, addressing mode and length are the instruction's. -/
def Form.Encodes (f : Form) : Prop :=
  f.instr.opcode = f.opcode ∧ f.instr.operand = f.operand ∧ (encode f.instr).length = f.bytes

/-- The state in which the instruction performs: its operand resolved (40 R161, R163). -/
def Form.resolved (f : Form) (s : State) : State := resolve f.operand s

/-- The effective address. -/
def Form.ea (f : Form) (s : State) : Addr := (f.resolved s).cpu.operandAddr

/-- The source operand, `load()` (40 R180). -/
def Form.src (f : Form) (s : State) : Byte := (load f.operand (f.resolved s)).1

/-- The cycles charged: the base count, and 1 more across a page for a form that pays for it (40 R161, R182). -/
def Form.cycles (f : Form) (s : State) : BitVec 16 :=
  BitVec.ofNat 16 (f.base + (if f.page && (f.resolved s).cpu.pageCrossed then 1 else 0))

/-- `s` after an instruction that writes no memory: registers as `c` has them, the latent operand state as resolving
leaves it, the cycles charged, and the devices as `t` has them after the reads. Work RAM, the cartridge and the host's
side are as in `s`. -/
def Form.after (f : Form) (s : State) (c : Cpu) (t : State) : State :=
  { s with
    cpu := { c with
      operandAddr := (f.resolved s).cpu.operandAddr
      isMemoryOperand := (f.resolved s).cpu.isMemoryOperand
      pageCrossed := (f.resolved s).cpu.pageCrossed
      cyclesUntilNext := f.cycles s }
    ppu := t.ppu
    pads := t.pads }

/-- After an instruction that loads its operand, with one read of it. -/
def Form.loaded (f : Form) (s : State) (c : Cpu) : State := f.after s c (load f.operand (f.resolved s)).2

/-- After an instruction that makes no access to its effective address. -/
def Form.quiet (f : Form) (s : State) (c : Cpu) : State := f.after s c (f.resolved s)

/-- After an instruction that stores `v` at its effective address without reading it (40 R181, R184). -/
def Form.stored (f : Form) (s : State) (v : Byte) : State := memWrite (f.quiet s s.cpu) (f.ea s) v

/-- After an instruction that reads its operand and stores `v` in its place, once each (40 R181, R183): in A for the
accumulator form, else at the effective address. -/
def Form.modified (f : Form) (s : State) (c : Cpu) (v : Byte) : State :=
  if f.operand = .acc then f.loaded s { c with a := v } else memWrite (f.loaded s c) (f.ea s) v

/-- `p'` is `p` with the flags of `new` as given there and every other flag as in `p`. -/
def FlagsAre (p p' : Byte) (new : List (Flag × Bool)) : Prop :=
  ∀ f, flagOf p' f = (new.lookup f).getD (flagOf p f)

/-- Z and N of a result (00 R11). -/
def zn (r : Byte) : List (Flag × Bool) := [(.z, r == 0), (.n, r.getLsbD 7)]

/-- C, Z and N of the comparison of a register with a byte (42 R203). -/
def compared (r m : Byte) : List (Flag × Bool) :=
  [(.c, decide (m.toNat ≤ r.toNat)), (.z, r == m), (.n, (r - m).getLsbD 7)]

/-- A flag as a number. -/
def num (b : Bool) : Nat := if b then 1 else 0

/-- A + m + C (42 R201). -/
def sum (a m : Byte) (c : Bool) : Nat := a.toNat + m.toNat + num c

/-- A - m - (1 - C) (42 R202). -/
def difference (a m : Byte) (c : Bool) : Int := (a.toNat : Int) - m.toNat - (1 - num c)

/-- C, V, Z and N of an addition whose result is `r` (42 R201). -/
def added (a m : Byte) (c : Bool) (r : Byte) : List (Flag × Bool) :=
  [(.v, a.getLsbD 7 == m.getLsbD 7 && a.getLsbD 7 != r.getLsbD 7), (.c, decide (255 < sum a m c))] ++ zn r

/-- C, V, Z and N of a subtraction whose result is `r` (42 R202). -/
def subtracted (a m : Byte) (c : Bool) (r : Byte) : List (Flag × Bool) :=
  [(.v, a.getLsbD 7 != m.getLsbD 7 && r.getLsbD 7 != a.getLsbD 7), (.c, decide (0 ≤ difference a m c))] ++ zn r

/-- After an instruction of an implied mode that makes no access: registers as `c` has them, `base` cycles charged and
the latent operand state as resolving the implied mode leaves it (40 R163). -/
def implied (s : State) (c : Cpu) (base : BitVec 16) : State :=
  { s with
    cpu := { c with
      operandAddr := (resolve .imp s).cpu.operandAddr
      isMemoryOperand := (resolve .imp s).cpu.isMemoryOperand
      pageCrossed := (resolve .imp s).cpu.pageCrossed
      cyclesUntilNext := base } }

/-- The stack byte that a stack pointer designates, as an address of work RAM (40 R166). -/
def stackByte (sp : Byte) : Nat := 0x100 + sp.toNat

/-- P after a pull: bits 4 and 5 keep their current values (45 R243). -/
def pulled (p q : Byte) : Byte := (q &&& 0xCF) ||| (p &&& 0x30)

/-- The forms of LDA (41 R191). -/
def ldaForms (v a : Byte) (w : Addr) : List Form := [
   ⟨.ldaIndX a, 0xA1, .indX a, 2, 6, false⟩,
   ⟨.ldaZp a, 0xA5, .zp a, 2, 3, false⟩,
   ⟨.ldaImm v, 0xA9, .imm v, 2, 2, false⟩,
   ⟨.ldaAbs w, 0xAD, .abs w, 3, 4, false⟩,
   ⟨.ldaIndY a, 0xB1, .indY a, 2, 5, true⟩,
   ⟨.ldaZpX a, 0xB5, .zpX a, 2, 4, false⟩,
   ⟨.ldaAbsY w, 0xB9, .absY w, 3, 4, true⟩,
   ⟨.ldaAbsX w, 0xBD, .absX w, 3, 4, true⟩]

/-- The forms of LDX (41 R192). -/
def ldxForms (v a : Byte) (w : Addr) : List Form := [
   ⟨.ldxImm v, 0xA2, .imm v, 2, 2, false⟩,
   ⟨.ldxZp a, 0xA6, .zp a, 2, 3, false⟩,
   ⟨.ldxAbs w, 0xAE, .abs w, 3, 4, false⟩,
   ⟨.ldxZpY a, 0xB6, .zpY a, 2, 4, false⟩,
   ⟨.ldxAbsY w, 0xBE, .absY w, 3, 4, true⟩]

/-- The forms of LDY (41 R193). -/
def ldyForms (v a : Byte) (w : Addr) : List Form := [
   ⟨.ldyImm v, 0xA0, .imm v, 2, 2, false⟩,
   ⟨.ldyZp a, 0xA4, .zp a, 2, 3, false⟩,
   ⟨.ldyAbs w, 0xAC, .abs w, 3, 4, false⟩,
   ⟨.ldyZpX a, 0xB4, .zpX a, 2, 4, false⟩,
   ⟨.ldyAbsX w, 0xBC, .absX w, 3, 4, true⟩]

/-- The forms of STA (41 R194). -/
def staForms (_v a : Byte) (w : Addr) : List Form := [
   ⟨.staIndX a, 0x81, .indX a, 2, 6, false⟩,
   ⟨.staZp a, 0x85, .zp a, 2, 3, false⟩,
   ⟨.staAbs w, 0x8D, .abs w, 3, 4, false⟩,
   ⟨.staIndY a, 0x91, .indY a, 2, 6, false⟩,
   ⟨.staZpX a, 0x95, .zpX a, 2, 4, false⟩,
   ⟨.staAbsY w, 0x99, .absY w, 3, 5, false⟩,
   ⟨.staAbsX w, 0x9D, .absX w, 3, 5, false⟩]

/-- The forms of STX (41 R195). -/
def stxForms (_v a : Byte) (w : Addr) : List Form := [
   ⟨.stxZp a, 0x86, .zp a, 2, 3, false⟩,
   ⟨.stxAbs w, 0x8E, .abs w, 3, 4, false⟩,
   ⟨.stxZpY a, 0x96, .zpY a, 2, 4, false⟩]

/-- The forms of STY (41 R196). -/
def styForms (_v a : Byte) (w : Addr) : List Form := [
   ⟨.styZp a, 0x84, .zp a, 2, 3, false⟩,
   ⟨.styAbs w, 0x8C, .abs w, 3, 4, false⟩,
   ⟨.styZpX a, 0x94, .zpX a, 2, 4, false⟩]

/-- The forms of ADC (42 R201). -/
def adcForms (v a : Byte) (w : Addr) : List Form := [
   ⟨.adcIndX a, 0x61, .indX a, 2, 6, false⟩,
   ⟨.adcZp a, 0x65, .zp a, 2, 3, false⟩,
   ⟨.adcImm v, 0x69, .imm v, 2, 2, false⟩,
   ⟨.adcAbs w, 0x6D, .abs w, 3, 4, false⟩,
   ⟨.adcIndY a, 0x71, .indY a, 2, 5, true⟩,
   ⟨.adcZpX a, 0x75, .zpX a, 2, 4, false⟩,
   ⟨.adcAbsY w, 0x79, .absY w, 3, 4, true⟩,
   ⟨.adcAbsX w, 0x7D, .absX w, 3, 4, true⟩]

/-- The forms of SBC (42 R202). -/
def sbcForms (v a : Byte) (w : Addr) : List Form := [
   ⟨.sbcIndX a, 0xE1, .indX a, 2, 6, false⟩,
   ⟨.sbcZp a, 0xE5, .zp a, 2, 3, false⟩,
   ⟨.sbcImm v, 0xE9, .imm v, 2, 2, false⟩,
   ⟨.sbcAbs w, 0xED, .abs w, 3, 4, false⟩,
   ⟨.sbcIndY a, 0xF1, .indY a, 2, 5, true⟩,
   ⟨.sbcZpX a, 0xF5, .zpX a, 2, 4, false⟩,
   ⟨.sbcAbsY w, 0xF9, .absY w, 3, 4, true⟩,
   ⟨.sbcAbsX w, 0xFD, .absX w, 3, 4, true⟩]

/-- The forms of CMP (42 R203). -/
def cmpForms (v a : Byte) (w : Addr) : List Form := [
   ⟨.cmpIndX a, 0xC1, .indX a, 2, 6, false⟩,
   ⟨.cmpZp a, 0xC5, .zp a, 2, 3, false⟩,
   ⟨.cmpImm v, 0xC9, .imm v, 2, 2, false⟩,
   ⟨.cmpAbs w, 0xCD, .abs w, 3, 4, false⟩,
   ⟨.cmpIndY a, 0xD1, .indY a, 2, 5, true⟩,
   ⟨.cmpZpX a, 0xD5, .zpX a, 2, 4, false⟩,
   ⟨.cmpAbsY w, 0xD9, .absY w, 3, 4, true⟩,
   ⟨.cmpAbsX w, 0xDD, .absX w, 3, 4, true⟩]

/-- The forms of CPX (42 R204). -/
def cpxForms (v a : Byte) (w : Addr) : List Form := [
   ⟨.cpxImm v, 0xE0, .imm v, 2, 2, false⟩,
   ⟨.cpxZp a, 0xE4, .zp a, 2, 3, false⟩,
   ⟨.cpxAbs w, 0xEC, .abs w, 3, 4, false⟩]

/-- The forms of CPY (42 R205). -/
def cpyForms (v a : Byte) (w : Addr) : List Form := [
   ⟨.cpyImm v, 0xC0, .imm v, 2, 2, false⟩,
   ⟨.cpyZp a, 0xC4, .zp a, 2, 3, false⟩,
   ⟨.cpyAbs w, 0xCC, .abs w, 3, 4, false⟩]

/-- The forms of INC (42 R206). -/
def incForms (_v a : Byte) (w : Addr) : List Form := [
   ⟨.incZp a, 0xE6, .zp a, 2, 5, false⟩,
   ⟨.incAbs w, 0xEE, .abs w, 3, 6, false⟩,
   ⟨.incZpX a, 0xF6, .zpX a, 2, 6, false⟩,
   ⟨.incAbsX w, 0xFE, .absX w, 3, 7, false⟩]

/-- The forms of DEC (42 R207). -/
def decForms (_v a : Byte) (w : Addr) : List Form := [
   ⟨.decZp a, 0xC6, .zp a, 2, 5, false⟩,
   ⟨.decAbs w, 0xCE, .abs w, 3, 6, false⟩,
   ⟨.decZpX a, 0xD6, .zpX a, 2, 6, false⟩,
   ⟨.decAbsX w, 0xDE, .absX w, 3, 7, false⟩]

/-- The forms of AND (43 R216). -/
def andForms (v a : Byte) (w : Addr) : List Form := [
   ⟨.andIndX a, 0x21, .indX a, 2, 6, false⟩,
   ⟨.andZp a, 0x25, .zp a, 2, 3, false⟩,
   ⟨.andImm v, 0x29, .imm v, 2, 2, false⟩,
   ⟨.andAbs w, 0x2D, .abs w, 3, 4, false⟩,
   ⟨.andIndY a, 0x31, .indY a, 2, 5, true⟩,
   ⟨.andZpX a, 0x35, .zpX a, 2, 4, false⟩,
   ⟨.andAbsY w, 0x39, .absY w, 3, 4, true⟩,
   ⟨.andAbsX w, 0x3D, .absX w, 3, 4, true⟩]

/-- The forms of EOR (43 R217). -/
def eorForms (v a : Byte) (w : Addr) : List Form := [
   ⟨.eorIndX a, 0x41, .indX a, 2, 6, false⟩,
   ⟨.eorZp a, 0x45, .zp a, 2, 3, false⟩,
   ⟨.eorImm v, 0x49, .imm v, 2, 2, false⟩,
   ⟨.eorAbs w, 0x4D, .abs w, 3, 4, false⟩,
   ⟨.eorIndY a, 0x51, .indY a, 2, 5, true⟩,
   ⟨.eorZpX a, 0x55, .zpX a, 2, 4, false⟩,
   ⟨.eorAbsY w, 0x59, .absY w, 3, 4, true⟩,
   ⟨.eorAbsX w, 0x5D, .absX w, 3, 4, true⟩]

/-- The forms of ORA (43 R218). -/
def oraForms (v a : Byte) (w : Addr) : List Form := [
   ⟨.oraIndX a, 0x01, .indX a, 2, 6, false⟩,
   ⟨.oraZp a, 0x05, .zp a, 2, 3, false⟩,
   ⟨.oraImm v, 0x09, .imm v, 2, 2, false⟩,
   ⟨.oraAbs w, 0x0D, .abs w, 3, 4, false⟩,
   ⟨.oraIndY a, 0x11, .indY a, 2, 5, true⟩,
   ⟨.oraZpX a, 0x15, .zpX a, 2, 4, false⟩,
   ⟨.oraAbsY w, 0x19, .absY w, 3, 4, true⟩,
   ⟨.oraAbsX w, 0x1D, .absX w, 3, 4, true⟩]

/-- The forms of ASL (43 R219). -/
def aslForms (_v a : Byte) (w : Addr) : List Form := [
   ⟨.aslZp a, 0x06, .zp a, 2, 5, false⟩,
   ⟨.aslAcc, 0x0A, .acc, 1, 2, false⟩,
   ⟨.aslAbs w, 0x0E, .abs w, 3, 6, false⟩,
   ⟨.aslZpX a, 0x16, .zpX a, 2, 6, false⟩,
   ⟨.aslAbsX w, 0x1E, .absX w, 3, 7, false⟩]

/-- The forms of LSR (43 R220). -/
def lsrForms (_v a : Byte) (w : Addr) : List Form := [
   ⟨.lsrZp a, 0x46, .zp a, 2, 5, false⟩,
   ⟨.lsrAcc, 0x4A, .acc, 1, 2, false⟩,
   ⟨.lsrAbs w, 0x4E, .abs w, 3, 6, false⟩,
   ⟨.lsrZpX a, 0x56, .zpX a, 2, 6, false⟩,
   ⟨.lsrAbsX w, 0x5E, .absX w, 3, 7, false⟩]

/-- The forms of ROL (43 R221). -/
def rolForms (_v a : Byte) (w : Addr) : List Form := [
   ⟨.rolZp a, 0x26, .zp a, 2, 5, false⟩,
   ⟨.rolAcc, 0x2A, .acc, 1, 2, false⟩,
   ⟨.rolAbs w, 0x2E, .abs w, 3, 6, false⟩,
   ⟨.rolZpX a, 0x36, .zpX a, 2, 6, false⟩,
   ⟨.rolAbsX w, 0x3E, .absX w, 3, 7, false⟩]

/-- The forms of ROR (43 R222). -/
def rorForms (_v a : Byte) (w : Addr) : List Form := [
   ⟨.rorZp a, 0x66, .zp a, 2, 5, false⟩,
   ⟨.rorAcc, 0x6A, .acc, 1, 2, false⟩,
   ⟨.rorAbs w, 0x6E, .abs w, 3, 6, false⟩,
   ⟨.rorZpX a, 0x76, .zpX a, 2, 6, false⟩,
   ⟨.rorAbsX w, 0x7E, .absX w, 3, 7, false⟩]

/-- The forms of BIT (43 R223). -/
def bitForms (_v a : Byte) (w : Addr) : List Form := [
   ⟨.bitZp a, 0x24, .zp a, 2, 3, false⟩,
   ⟨.bitAbs w, 0x2C, .abs w, 3, 4, false⟩]

/-- The forms of SLO (46 R261). -/
def sloForms (_v a : Byte) (w : Addr) : List Form := [
   ⟨.sloIndX a, 0x03, .indX a, 2, 8, false⟩,
   ⟨.sloZp a, 0x07, .zp a, 2, 5, false⟩,
   ⟨.sloAbs w, 0x0F, .abs w, 3, 6, false⟩,
   ⟨.sloIndY a, 0x13, .indY a, 2, 8, false⟩,
   ⟨.sloZpX a, 0x17, .zpX a, 2, 6, false⟩,
   ⟨.sloAbsY w, 0x1B, .absY w, 3, 7, false⟩,
   ⟨.sloAbsX w, 0x1F, .absX w, 3, 7, false⟩]

/-- The forms of RLA (46 R262). -/
def rlaForms (_v a : Byte) (w : Addr) : List Form := [
   ⟨.rlaIndX a, 0x23, .indX a, 2, 8, false⟩,
   ⟨.rlaZp a, 0x27, .zp a, 2, 5, false⟩,
   ⟨.rlaAbs w, 0x2F, .abs w, 3, 6, false⟩,
   ⟨.rlaIndY a, 0x33, .indY a, 2, 8, false⟩,
   ⟨.rlaZpX a, 0x37, .zpX a, 2, 6, false⟩,
   ⟨.rlaAbsY w, 0x3B, .absY w, 3, 7, false⟩,
   ⟨.rlaAbsX w, 0x3F, .absX w, 3, 7, false⟩]

/-- The forms of SRE (46 R263). -/
def sreForms (_v a : Byte) (w : Addr) : List Form := [
   ⟨.sreIndX a, 0x43, .indX a, 2, 8, false⟩,
   ⟨.sreZp a, 0x47, .zp a, 2, 5, false⟩,
   ⟨.sreAbs w, 0x4F, .abs w, 3, 6, false⟩,
   ⟨.sreIndY a, 0x53, .indY a, 2, 8, false⟩,
   ⟨.sreZpX a, 0x57, .zpX a, 2, 6, false⟩,
   ⟨.sreAbsY w, 0x5B, .absY w, 3, 7, false⟩,
   ⟨.sreAbsX w, 0x5F, .absX w, 3, 7, false⟩]

/-- The forms of RRA (46 R264). -/
def rraForms (_v a : Byte) (w : Addr) : List Form := [
   ⟨.rraIndX a, 0x63, .indX a, 2, 8, false⟩,
   ⟨.rraZp a, 0x67, .zp a, 2, 5, false⟩,
   ⟨.rraAbs w, 0x6F, .abs w, 3, 6, false⟩,
   ⟨.rraIndY a, 0x73, .indY a, 2, 8, false⟩,
   ⟨.rraZpX a, 0x77, .zpX a, 2, 6, false⟩,
   ⟨.rraAbsY w, 0x7B, .absY w, 3, 7, false⟩,
   ⟨.rraAbsX w, 0x7F, .absX w, 3, 7, false⟩]

/-- The forms of DCP (46 R265). -/
def dcpForms (_v a : Byte) (w : Addr) : List Form := [
   ⟨.dcpIndX a, 0xC3, .indX a, 2, 8, false⟩,
   ⟨.dcpZp a, 0xC7, .zp a, 2, 5, false⟩,
   ⟨.dcpAbs w, 0xCF, .abs w, 3, 6, false⟩,
   ⟨.dcpIndY a, 0xD3, .indY a, 2, 8, false⟩,
   ⟨.dcpZpX a, 0xD7, .zpX a, 2, 6, false⟩,
   ⟨.dcpAbsY w, 0xDB, .absY w, 3, 7, false⟩,
   ⟨.dcpAbsX w, 0xDF, .absX w, 3, 7, false⟩]

/-- The forms of ISC (46 R266). -/
def iscForms (_v a : Byte) (w : Addr) : List Form := [
   ⟨.iscIndX a, 0xE3, .indX a, 2, 8, false⟩,
   ⟨.iscZp a, 0xE7, .zp a, 2, 5, false⟩,
   ⟨.iscAbs w, 0xEF, .abs w, 3, 6, false⟩,
   ⟨.iscIndY a, 0xF3, .indY a, 2, 8, false⟩,
   ⟨.iscZpX a, 0xF7, .zpX a, 2, 6, false⟩,
   ⟨.iscAbsY w, 0xFB, .absY w, 3, 7, false⟩,
   ⟨.iscAbsX w, 0xFF, .absX w, 3, 7, false⟩]

/-- The forms of SAX (46 R267). -/
def saxForms (_v a : Byte) (w : Addr) : List Form := [
   ⟨.saxIndX a, 0x83, .indX a, 2, 6, false⟩,
   ⟨.saxZp a, 0x87, .zp a, 2, 3, false⟩,
   ⟨.saxAbs w, 0x8F, .abs w, 3, 4, false⟩,
   ⟨.saxZpY a, 0x97, .zpY a, 2, 4, false⟩]

/-- The forms of LAX (46 R268). -/
def laxForms (_v a : Byte) (w : Addr) : List Form := [
   ⟨.laxIndX a, 0xA3, .indX a, 2, 6, false⟩,
   ⟨.laxZp a, 0xA7, .zp a, 2, 3, false⟩,
   ⟨.laxAbs w, 0xAF, .abs w, 3, 4, false⟩,
   ⟨.laxIndY a, 0xB3, .indY a, 2, 5, true⟩,
   ⟨.laxZpY a, 0xB7, .zpY a, 2, 4, false⟩,
   ⟨.laxAbsY w, 0xBF, .absY w, 3, 4, true⟩]

/-- The forms of ANC (46 R269). -/
def ancForms (v _a : Byte) (_w : Addr) : List Form := [
   ⟨.ancImm0B v, 0x0B, .imm v, 2, 2, false⟩,
   ⟨.ancImm2B v, 0x2B, .imm v, 2, 2, false⟩]

/-- The forms of ALR (46 R270). -/
def alrForms (v _a : Byte) (_w : Addr) : List Form := [
   ⟨.alrImm v, 0x4B, .imm v, 2, 2, false⟩]

/-- The forms of *SBC (46 R271). -/
def sbcUForms (v _a : Byte) (_w : Addr) : List Form := [
   ⟨.sbcImmEB v, 0xEB, .imm v, 2, 2, false⟩]

/-- The forms of *NOP (46 R272). -/
def nopUForms (v a : Byte) (w : Addr) : List Form := [
   ⟨.nopZp04 a, 0x04, .zp a, 2, 3, false⟩,
   ⟨.nopAbs0C w, 0x0C, .abs w, 3, 4, false⟩,
   ⟨.nopZpX14 a, 0x14, .zpX a, 2, 4, false⟩,
   ⟨.nopImp1A, 0x1A, .imp, 1, 2, false⟩,
   ⟨.nopAbsX1C w, 0x1C, .absX w, 3, 4, true⟩,
   ⟨.nopZpX34 a, 0x34, .zpX a, 2, 4, false⟩,
   ⟨.nopImp3A, 0x3A, .imp, 1, 2, false⟩,
   ⟨.nopAbsX3C w, 0x3C, .absX w, 3, 4, true⟩,
   ⟨.nopZp44 a, 0x44, .zp a, 2, 3, false⟩,
   ⟨.nopZpX54 a, 0x54, .zpX a, 2, 4, false⟩,
   ⟨.nopImp5A, 0x5A, .imp, 1, 2, false⟩,
   ⟨.nopAbsX5C w, 0x5C, .absX w, 3, 4, true⟩,
   ⟨.nopZp64 a, 0x64, .zp a, 2, 3, false⟩,
   ⟨.nopZpX74 a, 0x74, .zpX a, 2, 4, false⟩,
   ⟨.nopImp7A, 0x7A, .imp, 1, 2, false⟩,
   ⟨.nopAbsX7C w, 0x7C, .absX w, 3, 4, true⟩,
   ⟨.nopImm80 v, 0x80, .imm v, 2, 2, false⟩,
   ⟨.nopImm82 v, 0x82, .imm v, 2, 2, false⟩,
   ⟨.nopImm89 v, 0x89, .imm v, 2, 2, false⟩,
   ⟨.nopImmC2 v, 0xC2, .imm v, 2, 2, false⟩,
   ⟨.nopZpXD4 a, 0xD4, .zpX a, 2, 4, false⟩,
   ⟨.nopImpDA, 0xDA, .imp, 1, 2, false⟩,
   ⟨.nopAbsXDC w, 0xDC, .absX w, 3, 4, true⟩,
   ⟨.nopImmE2 v, 0xE2, .imm v, 2, 2, false⟩,
   ⟨.nopZpXF4 a, 0xF4, .zpX a, 2, 4, false⟩,
   ⟨.nopImpFA, 0xFA, .imp, 1, 2, false⟩,
   ⟨.nopAbsXFC w, 0xFC, .absX w, 3, 4, true⟩]

end Sys2Proof.Claims

open Sys2Proof Sys2Proof.Machine Sys2Proof.Claims

-- Encoding (file 30).

/-- Decoding the bytes of any instruction, whatever follows them, gives the instruction and what follows (30 R140,
R141, R146). -/
def Obligations.DecodeAfterEncode : Prop :=
  ∀ (i : Instr) (rest : List Byte), decode (encode i ++ rest) = .ok (i, rest)

/-- What decodes is exactly what the instruction encodes to, and a byte string fails to decode only for want of bytes: no
opcode is reserved or undefined (30 R140, R141, R144, R147). -/
def Obligations.EncodeAfterDecode : Prop :=
  (∀ bytes i rest, decode bytes = .ok (i, rest) → encode i ++ rest = bytes)
    ∧ ∀ (op : Byte) (rest : List Byte), (opInfo op).bytes ≤ rest.length + 1 → ∃ i t, decode (op :: rest) = .ok (i, t)

/-- Words written out from the spec's encodings decode to the instructions they stand for (examples of files 40 to
46). -/
def Obligations.WrittenWordsDecode : Prop :=
  decode [0xA9, 0x42] = .ok (.ldaImm 0x42, []) ∧ decode [0x8D, 0x00, 0x02] = .ok (.staAbs 0x0200, [])
    ∧ decode [0xE8] = .ok (.inx, []) ∧ decode [0x0A] = .ok (.aslAcc, [])
    ∧ decode [0x6C, 0xFF, 0x02] = .ok (.jmpInd 0x02FF, []) ∧ decode [0xD0, 0xFE] = .ok (.bne 0xFE, [])
    ∧ decode [0x00] = .ok (.brk, []) ∧ decode [0x07, 0x10] = .ok (.sloZp 0x10, [])
    ∧ decode [0x1C, 0xFF, 0x02] = .ok (.nopAbsX1C 0x02FF, []) ∧ decode [0x6B] = .ok (.undef .x6B, [])
    ∧ decode [0xB1, 0x20] = .ok (.ldaIndY 0x20, []) ∧ decode [0x48] = .ok (.pha, [])

/-- Every step, whatever its CPU tick does, is three PPU dots and then one CPU tick, with the frame loop around them (70 R395, R396).
A step at an instruction boundary runs the instruction that the bytes at PC decode to: after the frame is opened and
the PPU's three dots are done (70 R395, R396), the opcode and operand bytes are read once each in order and PC moves
past them (40 R161, R162); then exec, one cycle counted down and one tick counted (40 R160), and the frame's end looked at.
Model's choices: one step is one group with the frame loop around it (log 1, DESIGN CHOICE); an immediate operand is read when its
byte is fetched (log 4, DEDUCED); an immediate *NOP's byte is passed without a read (log 5, DEDUCED from 46 R272). -/
def Obligations.StepRunsTheDecodedInstruction : Prop :=
  (∀ s : State, step s = andThen (cpuTick (ppuTick (ppuTick (ppuTick (openFrame s))))) closeFrame)
    ∧ ∀ (s : State) (i : Instr) (rest : List Byte),
    let t := threeDots (openFrame s)
    let pc := t.cpu.pc
    let r0 := memRead t pc
    let r1 := memRead r0.2 (pc + 1)
    let r2 := memRead r1.2 (pc + 2)
    t.cpu.dmaRemaining = 0 → t.cpu.cyclesUntilNext.toInt ≤ 0 → t.cpu.nmiPending = false →
    decode [r0.1, r1.1, r2.1] = .ok (i, rest) →
    let n := (encode i).length
    let u := if n = 1 ∨ (i.mnemonic = .nopU ∧ i.info.mode = .imm) then r0.2 else if n = 2 then r1.2 else r2.2
    let ran := exec i { u with cpu := { t.cpu with pc := pc + BitVec.ofNat 16 n } }
    step s = andThen ran fun x =>
      closeFrame { x with cpu := { x.cpu with
        cyclesUntilNext := x.cpu.cyclesUntilNext - 1, cycleCount := x.cpu.cycleCount + 1 } }

-- The machine as a whole.

/-- The invariant of Safety.lean holds after reset: ranges, canonical memories, P.B = 0 and P.U = 1. -/
def Obligations.ResetMeetsTheInvariant : Prop := State.reset.Inv

/-- Every step keeps the invariant: memories stay canonical and within their arrays, the counters within the ranges of 10
R29, R31 and R36, P.B = 0, P.U = 1, no IRQ, the pixels within 240 by 256, and what the host is handed is a machine. -/
def Obligations.EveryStepKeepsTheInvariant : Prop := ∀ s t, s.Inv → step s = .next t → t.Inv

namespace Sys2Proof.Claims

/-- `n` steps. -/
def steps : Nat → State → Result
  | 0, s => .next s
  | n + 1, s =>
    match step s with
    | .next t => steps n t
    | .fault e => .fault e
    | .refused e => .refused e

end Sys2Proof.Claims

/-- Nothing stops the machine: every instruction, every CPU tick, every step and every run, whatever its END_OF_RUN, answers a
next state (60 R352, R365; 70 R400). A run of n CPU ticks is n steps, and a run of n frame calls is n times one. A frame call from
between frames, in a machine that meets the invariant, is the steps up to the first after which the machine is between frames
again, 29,781 at the most (70 R396, R400). How END_OF_RUN counts is the model's choice (log 9, DESIGN CHOICE), as is a step that is
one group (log 1). -/
def Obligations.NoStepStops : Prop :=
  (∀ i s, ∃ t, exec i s = .next t) ∧ (∀ s, ∃ t, cpuTick s = .next t) ∧ (∀ s, ∃ t, step s = .next t)
    ∧ (∀ e s, ∃ t, runUntil e s = .next t)
    ∧ (∀ n s, runUntil (.ticks n) s = steps n s)
    ∧ (∀ s, runUntil (.frames 0) s = .next s)
    ∧ (∀ n s t, runUntil (.frames 1) s = .next t → runUntil (.frames (n + 1)) s = runUntil (.frames n) t)
    ∧ ∀ s : State, s.Inv → s.port.betweenFrames = true →
      ∃ k t, 1 ≤ k ∧ k ≤ 29781 ∧ runUntil (.frames 1) s = .next t ∧ steps k s = .next t ∧ t.port.betweenFrames = true
        ∧ ∀ j u, 1 ≤ j → j < k → steps j s = .next u → u.port.betweenFrames = false

/-- No CPU tick, whether it runs an instruction, takes an NMI, stalls or idles, changes bit 4 or bit 5 of P (10 R25). -/
def Obligations.BreakAndUnusedBitsNeverChange : Prop :=
  ∀ s t, cpuTick s = .next t →
    flagOf t.cpu.p .b = flagOf s.cpu.p .b ∧ flagOf t.cpu.p .u = flagOf s.cpu.p .u

namespace Sys2Proof.Claims

/-- The instructions that set Z and N from a result, with BIT, PLP and RTI (10 R24). -/
def zWriters : List Mnemonic :=
  [.lda, .ldx, .ldy, .adc, .sbc, .cmp, .cpx, .cpy, .inc, .dec, .inx, .dex, .iny, .dey, .and, .eor, .ora, .asl, .lsr,
   .rol, .ror, .bit, .plp, .pla, .rti, .tax, .tay, .txa, .tya, .tsx, .slo, .rla, .sre, .rra, .dcp, .isc, .lax, .anc,
   .alr, .sbcU]

/-- The instructions that write a flag (10 R24). -/
def flagWriters : Flag → List Mnemonic
  | .c => [.adc, .sbc, .cmp, .cpx, .cpy, .asl, .lsr, .rol, .ror, .clc, .sec, .plp, .rti, .slo, .rla, .sre, .rra, .dcp,
           .isc, .anc, .alr, .sbcU]
  | .z | .n => zWriters
  | .i => [.cli, .sei, .brk, .plp, .rti]
  | .d => [.cld, .sed, .plp, .rti]
  | .b | .u => []
  | .v => [.adc, .sbc, .bit, .clv, .plp, .rti, .rra, .isc, .sbcU]

/-- The instructions that store at their effective address. -/
def storing : List Mnemonic :=
  [.sta, .stx, .sty, .sax, .inc, .dec, .asl, .lsr, .rol, .ror, .slo, .rla, .sre, .rra, .dcp, .isc]

/-- An instruction stores at its effective address: the accumulator forms of the shifts do not. -/
def Stores (i : Instr) : Prop := i.mnemonic ∈ storing ∧ i.operand ≠ .acc

/-- The effective address of an instruction. -/
def eaOf (i : Instr) (s : State) : Addr := (resolve i.operand s).cpu.operandAddr

/-- The instructions that write A: 10 R20, file by file; a shift only in its accumulator form. -/
def WritesA (i : Instr) : Prop :=
  i.mnemonic ∈ [Mnemonic.lda, .adc, .sbc, .and, .eor, .ora, .pla, .txa, .tya, .slo, .rla, .sre, .rra, .isc, .lax, .anc,
    .alr, .sbcU] ∨ (i.mnemonic ∈ [Mnemonic.asl, .lsr, .rol, .ror] ∧ i.operand = .acc)

end Sys2Proof.Claims

/-- An instruction changes only the flags that 10 R24 names it for; every other flag of P keeps its value. -/
def Obligations.OnlyNamedInstructionsWriteAFlag : Prop :=
  ∀ i s t f, exec i s = .next t → i.mnemonic ∉ flagWriters f → flagOf t.cpu.p f = flagOf s.cpu.p f

/-- The register frame of every instruction: A, X, Y, S and PC change only under the instructions that write them
(10 R20 to R23, 40 R162, files 41 to 46); the DMA latches only under a store to $4014 (20 R83); the tick count, the
interrupt latches, the DMA buffer and the host's side never. -/
def Obligations.OnlyNamedInstructionsWriteARegister : Prop :=
  ∀ i s t, exec i s = .next t →
    (¬ WritesA i → t.cpu.a = s.cpu.a)
      ∧ (i.mnemonic ∉ [Mnemonic.ldx, .inx, .dex, .tax, .tsx, .lax] → t.cpu.x = s.cpu.x)
      ∧ (i.mnemonic ∉ [Mnemonic.ldy, .iny, .dey, .tay] → t.cpu.y = s.cpu.y)
      ∧ (i.mnemonic ∉ [Mnemonic.txs, .php, .pha, .plp, .pla, .jsr, .rts, .brk, .rti] → t.cpu.s = s.cpu.s)
      ∧ (i.mnemonic ∉ [Mnemonic.jmp, .jsr, .rts, .brk, .rti] → i.info.penalty ≠ .branch → t.cpu.pc = s.cpu.pc)
      ∧ (¬ (Stores i ∧ eaOf i s = 0x4014) →
          t.cpu.dmaPage = s.cpu.dmaPage ∧ t.cpu.dmaRemaining = s.cpu.dmaRemaining)
      ∧ t.cpu.cycleCount = s.cpu.cycleCount ∧ t.cpu.nmiPending = s.cpu.nmiPending
      ∧ t.cpu.irqPending = s.cpu.irqPending ∧ t.cpu.dmaBuffer = s.cpu.dmaBuffer ∧ t.port = s.port

/-- No CPU tick changes the launch image: PRG-ROM, its size, the mapper, the header mirroring, and CHR-ROM stay (10 R50 to
R54, 21 R113, R115). -/
def Obligations.NoCpuTickChangesTheLaunchImage : Prop :=
  ∀ s t, cpuTick s = .next t →
    t.cart.mapper = s.cart.mapper ∧ t.cart.prgRom = s.cart.prgRom ∧ t.cart.prgBanks16 = s.cart.prgBanks16
      ∧ t.cart.chrBanks8 = s.cart.chrBanks8 ∧ t.cart.chrIsRam = s.cart.chrIsRam
      ∧ t.cart.prgRamPresent = s.cart.prgRamPresent ∧ t.cart.headerMirroring = s.cart.headerMirroring
      ∧ (s.cart.chrIsRam = false → t.cart.chr = s.cart.chr)

/-- The decimal flag is stored but no instruction reads it (10 R27, 42 R200): with D set or clear an instruction does the
same, D itself apart. The instructions that write D, and the two that push P, are the ones left out. -/
def Obligations.DecimalFlagIsNeverRead : Prop :=
  ∀ (i : Instr) (s t : State), i.mnemonic ∉ [Mnemonic.cld, .sed, .plp, .rti, .php, .brk] →
    exec i (s.setFlag .d false) = .next t → exec i (s.setFlag .d true) = .next (t.setFlag .d true)

-- Addressing modes (40 R167 to R179).

namespace Sys2Proof.Claims

/-- Resolving `o` writes the latent operand state with these values and does nothing else. -/
def ResolvesTo (o : Operand) (s : State) (ea : Addr) (memory crossed : Bool) : Prop :=
  resolve o s =
    { s with cpu := { s.cpu with operandAddr := ea, isMemoryOperand := memory, pageCrossed := crossed } }

/-- A word from two bytes of page 0, the second address wrapping within the page (40 R177, R178). -/
def pagePointer (s : State) (p : Nat) : Nat := (s.wram.read (p % 256)).toNat + 256 * (s.wram.read ((p + 1) % 256)).toNat

end Sys2Proof.Claims

/-- The effective address of every mode, with the wraps of page 0 and of the address space, and the page-cross test (40 R163,
R167 to R179). The indirect jump's pointer is read low byte first, the high byte from the same page as the low one, with the
side effects of those two reads. An operand is loaded with one bus read at the effective address, but for the accumulator, whose
value it is, and the immediate, whose byte the fetch read (40 R180; log 4, DEDUCED); a store writes A in accumulator mode and
makes one bus write otherwise (40 R181). That imp1, the mode of the undefined opcodes, resolves like the implied mode is the
model's choice (log 23, DEDUCED). -/
def Obligations.AddressingModes : Prop :=
  ∀ (s : State) (a : Byte) (w : Addr),
    let x := s.cpu.x.toNat
    let y := s.cpu.y.toNat
    let pc := s.cpu.pc
    (∀ o, o = .imp ∨ o = .acc ∨ o = .imp1 → ResolvesTo o s 0 false false)
      ∧ ResolvesTo (.imm a) s (pc - 1) true false
      ∧ ResolvesTo (.zp a) s (BitVec.ofNat 16 a.toNat) true false
      ∧ ResolvesTo (.zpX a) s (BitVec.ofNat 16 ((a.toNat + x) % 256)) true false
      ∧ ResolvesTo (.zpY a) s (BitVec.ofNat 16 ((a.toNat + y) % 256)) true false
      ∧ ResolvesTo (.abs w) s w true false
      ∧ ResolvesTo (.absX w) s (BitVec.ofNat 16 (w.toNat + x)) true
          (decide ((w.toNat + x) % 65536 / 256 ≠ w.toNat / 256))
      ∧ ResolvesTo (.absY w) s (BitVec.ofNat 16 (w.toNat + y)) true
          (decide ((w.toNat + y) % 65536 / 256 ≠ w.toNat / 256))
      ∧ ResolvesTo (.indX a) s (BitVec.ofNat 16 (pagePointer s (a.toNat + x))) true false
      ∧ ResolvesTo (.indY a) s (BitVec.ofNat 16 (pagePointer s a.toNat + y)) true
          (decide ((pagePointer s a.toNat + y) % 65536 / 256 ≠ pagePointer s a.toNat / 256))
      ∧ ResolvesTo (.rel a) s (BitVec.ofInt 16 (pc.toNat + a.toInt)) true
          (decide (((pc.toNat + a.toInt) % 65536) / 256 ≠ pc.toNat / 256))
      ∧ (let w2 := if w.toNat % 256 = 255 then w - 255 else w + 1
         let l := memRead s w
         let h := memRead l.2 w2
         resolve (.ind w) s =
          { s with
            cpu := { s.cpu with
              operandAddr := BitVec.ofNat 16 (256 * h.1.toNat + l.1.toNat), isMemoryOperand := true
              pageCrossed := false }
            ppu := h.2.ppu, pads := h.2.pads })
      ∧ load .acc s = (s.cpu.a, s) ∧ load (.imm a) s = (a, s)
      ∧ (∀ v, store .acc v s = { s with cpu := { s.cpu with a := v } })
      ∧ ∀ o ∈ [Operand.zp a, .zpX a, .zpY a, .abs w, .absX w, .absY w, .indX a, .indY a],
          load o s = memRead s s.cpu.operandAddr ∧ ∀ v, store o v s = memWrite s s.cpu.operandAddr v

-- Load and store (file 41).

/-- LDA, LDX and LDY load their register with the operand, set Z and N from it and change no other flag or register (41
R191 to R193). -/
def Obligations.LoadResults : Prop :=
  ∀ (v a : Byte) (w : Addr) (s : State),
    (∀ f ∈ ldaForms v a w, f.Encodes ∧ ∃ p, FlagsAre s.cpu.p p (zn (f.src s)) ∧
        exec f.instr s = .next (f.loaded s { s.cpu with a := f.src s, p := p }))
      ∧ (∀ f ∈ ldxForms v a w, f.Encodes ∧ ∃ p, FlagsAre s.cpu.p p (zn (f.src s)) ∧
        exec f.instr s = .next (f.loaded s { s.cpu with x := f.src s, p := p }))
      ∧ ∀ f ∈ ldyForms v a w, f.Encodes ∧ ∃ p, FlagsAre s.cpu.p p (zn (f.src s)) ∧
        exec f.instr s = .next (f.loaded s { s.cpu with y := f.src s, p := p })

/-- STA, STX and STY write their register at the effective address and change no flag and no register (41 R194 to R196). That
they make no read of that address is the spec's own decision D3 (40 R184). -/
def Obligations.StoreResults : Prop :=
  ∀ (v a : Byte) (w : Addr) (s : State),
    (∀ f ∈ staForms v a w, f.Encodes ∧ exec f.instr s = .next (f.stored s s.cpu.a))
      ∧ (∀ f ∈ stxForms v a w, f.Encodes ∧ exec f.instr s = .next (f.stored s s.cpu.x))
      ∧ ∀ f ∈ styForms v a w, f.Encodes ∧ exec f.instr s = .next (f.stored s s.cpu.y)

-- Arithmetic (file 42).

/-- ADC: A becomes A + m + C modulo 256, C the carry, V the signed overflow, Z and N from A (42 R201). -/
def Obligations.AddResult : Prop :=
  ∀ (v a : Byte) (w : Addr) (s : State), ∀ f ∈ adcForms v a w,
    let m := f.src s
    let c := flagOf s.cpu.p .c
    let r := BitVec.ofNat 8 (sum s.cpu.a m c)
    f.Encodes ∧ ∃ p, FlagsAre s.cpu.p p (added s.cpu.a m c r) ∧
      exec f.instr s = .next (f.loaded s { s.cpu with a := r, p := p })

/-- SBC and its duplicate $EB: A becomes A - m - (1 - C) modulo 256, C the absence of a borrow, V the signed overflow, Z
and N from A (42 R202, 46 R271). -/
def Obligations.SubtractResult : Prop :=
  ∀ (v a : Byte) (w : Addr) (s : State), ∀ f ∈ sbcForms v a w ++ sbcUForms v a w,
    let m := f.src s
    let c := flagOf s.cpu.p .c
    let r := BitVec.ofInt 8 (difference s.cpu.a m c)
    f.Encodes ∧ ∃ p, FlagsAre s.cpu.p p (subtracted s.cpu.a m c r) ∧
      exec f.instr s = .next (f.loaded s { s.cpu with a := r, p := p })

/-- CMP, CPX and CPY set C, Z and N from register - m and change nothing else (42 R203 to R205); BIT sets Z from A AND m, V from bit
6 and N from bit 7 of m, and changes nothing else (43 R223). -/
def Obligations.CompareAndBitTestResults : Prop :=
  ∀ (v a : Byte) (w : Addr) (s : State),
    (∀ f ∈ cmpForms v a w, f.Encodes ∧ ∃ p, FlagsAre s.cpu.p p (compared s.cpu.a (f.src s)) ∧
        exec f.instr s = .next (f.loaded s { s.cpu with p := p }))
      ∧ (∀ f ∈ cpxForms v a w, f.Encodes ∧ ∃ p, FlagsAre s.cpu.p p (compared s.cpu.x (f.src s)) ∧
        exec f.instr s = .next (f.loaded s { s.cpu with p := p }))
      ∧ (∀ f ∈ cpyForms v a w, f.Encodes ∧ ∃ p, FlagsAre s.cpu.p p (compared s.cpu.y (f.src s)) ∧
        exec f.instr s = .next (f.loaded s { s.cpu with p := p }))
      ∧ ∀ f ∈ bitForms v a w,
        let m := f.src s
        f.Encodes ∧ ∃ p, FlagsAre s.cpu.p p [(.z, s.cpu.a &&& m == 0), (.v, m.getLsbD 6), (.n, m.getLsbD 7)] ∧
          exec f.instr s = .next (f.loaded s { s.cpu with p := p })

/-- INC and DEC read their operand once, write it back one more or one less modulo 256, and set Z and N from the result; INX, DEX,
INY and DEY count their register and set Z and N from it (42 R206 to R211). -/
def Obligations.IncrementAndDecrementResults : Prop :=
  ∀ (v a : Byte) (w : Addr) (s : State),
    (∀ f ∈ incForms v a w, f.Encodes ∧ ∃ p, FlagsAre s.cpu.p p (zn (f.src s + 1)) ∧
        exec f.instr s = .next (f.modified s { s.cpu with p := p } (f.src s + 1)))
      ∧ (∀ f ∈ decForms v a w, f.Encodes ∧ ∃ p, FlagsAre s.cpu.p p (zn (f.src s - 1)) ∧
        exec f.instr s = .next (f.modified s { s.cpu with p := p } (f.src s - 1)))
      ∧ (encode .inx = [0xE8] ∧ ∃ p, FlagsAre s.cpu.p p (zn (s.cpu.x + 1)) ∧
        exec .inx s = .next (implied s { s.cpu with x := s.cpu.x + 1, p := p } 2))
      ∧ (encode .dex = [0xCA] ∧ ∃ p, FlagsAre s.cpu.p p (zn (s.cpu.x - 1)) ∧
        exec .dex s = .next (implied s { s.cpu with x := s.cpu.x - 1, p := p } 2))
      ∧ (encode .iny = [0xC8] ∧ ∃ p, FlagsAre s.cpu.p p (zn (s.cpu.y + 1)) ∧
        exec .iny s = .next (implied s { s.cpu with y := s.cpu.y + 1, p := p } 2))
      ∧ (encode .dey = [0x88] ∧ ∃ p, FlagsAre s.cpu.p p (zn (s.cpu.y - 1)) ∧
        exec .dey s = .next (implied s { s.cpu with y := s.cpu.y - 1, p := p } 2))

-- Logic and shifts (file 43).

/-- AND, EOR and ORA combine A with the operand into A and set Z and N from A (43 R216 to R218). -/
def Obligations.LogicResults : Prop :=
  ∀ (v a : Byte) (w : Addr) (s : State),
    (∀ f ∈ andForms v a w, f.Encodes ∧ ∃ p, FlagsAre s.cpu.p p (zn (s.cpu.a &&& f.src s)) ∧
        exec f.instr s = .next (f.loaded s { s.cpu with a := s.cpu.a &&& f.src s, p := p }))
      ∧ (∀ f ∈ eorForms v a w, f.Encodes ∧ ∃ p, FlagsAre s.cpu.p p (zn (s.cpu.a ^^^ f.src s)) ∧
        exec f.instr s = .next (f.loaded s { s.cpu with a := s.cpu.a ^^^ f.src s, p := p }))
      ∧ ∀ f ∈ oraForms v a w, f.Encodes ∧ ∃ p, FlagsAre s.cpu.p p (zn (s.cpu.a ||| f.src s)) ∧
        exec f.instr s = .next (f.loaded s { s.cpu with a := s.cpu.a ||| f.src s, p := p })

/-- ASL, LSR, ROL and ROR shift their operand by one, the bit shifted out going to C, the old C entering a rotate, Z and N
from the result, which replaces the operand (43 R219 to R222). That Z and N follow the result is the spec's own
decision D55. -/
def Obligations.ShiftResults : Prop :=
  ∀ (v a : Byte) (w : Addr) (s : State),
    let c := num (flagOf s.cpu.p .c)
    (∀ f ∈ aslForms v a w,
        let m := f.src s
        let r := BitVec.ofNat 8 (2 * m.toNat)
        f.Encodes ∧ ∃ p, FlagsAre s.cpu.p p ((.c, m.getLsbD 7) :: zn r) ∧
          exec f.instr s = .next (f.modified s { s.cpu with p := p } r))
      ∧ (∀ f ∈ lsrForms v a w,
        let m := f.src s
        let r := BitVec.ofNat 8 (m.toNat / 2)
        f.Encodes ∧ ∃ p, FlagsAre s.cpu.p p ((.c, m.getLsbD 0) :: zn r) ∧
          exec f.instr s = .next (f.modified s { s.cpu with p := p } r))
      ∧ (∀ f ∈ rolForms v a w,
        let m := f.src s
        let r := BitVec.ofNat 8 (2 * m.toNat + c)
        f.Encodes ∧ ∃ p, FlagsAre s.cpu.p p ((.c, m.getLsbD 7) :: zn r) ∧
          exec f.instr s = .next (f.modified s { s.cpu with p := p } r))
      ∧ ∀ f ∈ rorForms v a w,
        let m := f.src s
        let r := BitVec.ofNat 8 (m.toNat / 2 + 128 * c)
        f.Encodes ∧ ∃ p, FlagsAre s.cpu.p p ((.c, m.getLsbD 0) :: zn r) ∧
          exec f.instr s = .next (f.modified s { s.cpu with p := p } r)

-- Control (file 44).

/-- JMP sets PC to the effective address, in 3 cycles or, through a pointer, 5 (44 R226); an indirect jump at $xxFF reads its high
byte from $xx00 (40 R176). JSR pushes the address of its last byte, PC - 1, high byte first, and jumps (44 R227). RTS pulls an
address, low byte first, and continues at the byte after it (44 R230). RTI pulls P, keeping the current bits 4 and 5, then PC,
low byte first, with no adjustment (44 R229). The stack wraps within page 1; no other register or flag changes. -/
def Obligations.JumpAndReturnResults : Prop :=
  ∀ (s : State) (w : Addr),
    let sp := s.cpu.s
    (∀ f ∈ [(⟨.jmpAbs w, 0x4C, .abs w, 3, 3, false⟩ : Form), ⟨.jmpInd w, 0x6C, .ind w, 3, 5, false⟩],
        f.Encodes ∧ exec f.instr s = .next (f.quiet s { s.cpu with pc := f.ea s }))
      ∧ (resolve (.abs w) s).cpu.operandAddr = w
      ∧ (resolve (.ind w) s).cpu.operandAddr =
          w16 (memRead (memRead s w).2 (if w.toNat % 256 = 255 then w - 255 else w + 1)).1 (memRead s w).1
      ∧ encode (.jsrAbs w) = [0x20, lo w, hi w] ∧ encode .rts = [0x60] ∧ encode .rti = [0x40]
      ∧ exec (.jsrAbs w) s = .next
          { s with
            cpu := { s.cpu with
              pc := w, s := sp - 2, operandAddr := w, isMemoryOperand := true, pageCrossed := false
              cyclesUntilNext := 6 }
            wram := (s.wram.write (stackByte sp) (hi (s.cpu.pc - 1))).write (stackByte (sp - 1)) (lo (s.cpu.pc - 1)) }
      ∧ exec .rts s = .next
          (implied s { s.cpu with
            pc := w16 (s.wram.read (stackByte (sp + 2))) (s.wram.read (stackByte (sp + 1))) + 1, s := sp + 2 } 6)
      ∧ exec .rti s = .next
          (implied s { s.cpu with
            p := pulled s.cpu.p (s.wram.read (stackByte (sp + 1)))
            pc := w16 (s.wram.read (stackByte (sp + 3))) (s.wram.read (stackByte (sp + 2))), s := sp + 3 } 6)

/-- BRK pushes PC + 1, where PC is the address after its opcode, then P with bits 4 and 5 set, sets I and continues at the
vector of $FFFE/F (44 R228). That the pushed address is two past the opcode is the spec's own decision D58. -/
def Obligations.BreakResult : Prop :=
  ∀ (s : State),
    let sp := s.cpu.s
    encode .brk = [0x00] ∧ ∃ p, FlagsAre s.cpu.p p [(.i, true)] ∧
      exec .brk s = .next
        { implied s { s.cpu with
            pc := w16 (s.cart.cpuRead 0xFFFF) (s.cart.cpuRead 0xFFFE), s := sp - 3, p := p } 7 with
          wram := ((s.wram.write (stackByte sp) (hi (s.cpu.pc + 1))).write (stackByte (sp - 1)) (lo (s.cpu.pc + 1))).write
            (stackByte (sp - 2)) (s.cpu.p ||| 0x30) }

/-- A branch whose condition holds continues at PC plus its signed offset, in 3 cycles, or 4 when the mode's page test
(40 R179) holds; otherwise PC is the next instruction's and 2 cycles pass. No flag changes (44 R231 to R239). -/
def Obligations.BranchResults : Prop :=
  ∀ (s : State) (o : Byte),
    let target := BitVec.ofInt 16 (s.cpu.pc.toNat + o.toInt)
    let crossed := (resolve (.rel o) s).cpu.pageCrossed
    ∀ b ∈ [(Instr.bpl o, (0x10 : Byte), Flag.n, false), (.bmi o, 0x30, .n, true), (.bvc o, 0x50, .v, false),
          (.bvs o, 0x70, .v, true), (.bcc o, 0x90, .c, false), (.bcs o, 0xB0, .c, true), (.bne o, 0xD0, .z, false),
          (.beq o, 0xF0, .z, true)],
      encode b.1 = [b.2.1, o] ∧
        exec b.1 s = .next
          { s with cpu := { s.cpu with
              pc := if flagOf s.cpu.p b.2.2.1 = b.2.2.2 then target else s.cpu.pc
              operandAddr := target, isMemoryOperand := true, pageCrossed := crossed
              cyclesUntilNext := if flagOf s.cpu.p b.2.2.1 = b.2.2.2 then (if crossed then 4 else 3) else 2 } }

-- Stack, flags, transfers (file 45).

/-- PHP pushes P with bits 4 and 5 set, PHA pushes A, PLP pulls P but for bits 4 and 5 (45 R241 to R243). -/
def Obligations.StackPushPullResults : Prop :=
  ∀ (s : State),
    let sp := s.cpu.s
    encode .php = [0x08] ∧ encode .pha = [0x48] ∧ encode .plp = [0x28]
      ∧ exec .php s = .next
          { implied s { s.cpu with s := sp - 1 } 3 with wram := s.wram.write (stackByte sp) (s.cpu.p ||| 0x30) }
      ∧ exec .pha s = .next
          { implied s { s.cpu with s := sp - 1 } 3 with wram := s.wram.write (stackByte sp) s.cpu.a }
      ∧ exec .plp s = .next
          (implied s { s.cpu with s := sp + 1, p := pulled s.cpu.p (s.wram.read (stackByte (sp + 1))) } 4)

/-- PLA pulls A; TAX, TAY, TXA, TYA and TSX copy a register; each sets Z and N from the value moved (45 R244, R252 to
R256). That they set Z and N is the spec's own decision D59. -/
def Obligations.PullAndTransferResults : Prop :=
  ∀ (s : State),
    let c := s.cpu
    let m := s.wram.read (stackByte (c.s + 1))
    encode .pla = [0x68] ∧ encode .tax = [0xAA] ∧ encode .tay = [0xA8] ∧ encode .txa = [0x8A] ∧ encode .tya = [0x98]
      ∧ encode .tsx = [0xBA]
      ∧ (∃ p, FlagsAre c.p p (zn m) ∧ exec .pla s = .next (implied s { c with a := m, s := c.s + 1, p := p } 4))
      ∧ (∃ p, FlagsAre c.p p (zn c.a) ∧ exec .tax s = .next (implied s { c with x := c.a, p := p } 2))
      ∧ (∃ p, FlagsAre c.p p (zn c.a) ∧ exec .tay s = .next (implied s { c with y := c.a, p := p } 2))
      ∧ (∃ p, FlagsAre c.p p (zn c.x) ∧ exec .txa s = .next (implied s { c with a := c.x, p := p } 2))
      ∧ (∃ p, FlagsAre c.p p (zn c.y) ∧ exec .tya s = .next (implied s { c with a := c.y, p := p } 2))
      ∧ ∃ p, FlagsAre c.p p (zn c.s) ∧ exec .tsx s = .next (implied s { c with x := c.s, p := p } 2)

/-- CLC, SEC, CLI, SEI, CLD, SED and CLV give one flag its value and change nothing else (45 R245 to R251); TXS copies X to S and
sets no flag (45 R257); NOP does nothing but take 2 cycles (45 R258). -/
def Obligations.FlagAndPlainResults : Prop :=
  ∀ (s : State),
    (encode .txs = [0x9A] ∧ exec .txs s = .next (implied s { s.cpu with s := s.cpu.x } 2))
    ∧ (encode .nop = [0xEA] ∧ exec .nop s = .next (implied s s.cpu 2))
    ∧ ∀ b ∈ [(Instr.clc, (0x18 : Byte), Flag.c, false), (.sec, 0x38, .c, true), (.cli, 0x58, .i, false),
          (.sei, 0x78, .i, true), (.cld, 0xD8, .d, false), (.sed, 0xF8, .d, true), (.clv, 0xB8, .v, false)],
      encode b.1 = [b.2.1] ∧ ∃ p, FlagsAre s.cpu.p p [(b.2.2.1, b.2.2.2)] ∧
        exec b.1 s = .next (implied s { s.cpu with p := p } 2)

-- Unofficial and undefined opcodes (file 46). Which opcode carries which mnemonic is the spec's decision D5.

/-- SLO, RLA and SRE shift or rotate memory and combine the result with A; RRA rotates memory and adds the result with the
carry the rotate left; DCP decrements memory and compares A with the result; ISC increments memory and subtracts the result from
A (46 R260 to R266). -/
def Obligations.CompositeResults : Prop :=
  ∀ (v a : Byte) (w : Addr) (s : State),
    let c := num (flagOf s.cpu.p .c)
    (∀ f ∈ sloForms v a w,
        let m := f.src s
        let r := BitVec.ofNat 8 (2 * m.toNat)
        f.Encodes ∧ ∃ p, FlagsAre s.cpu.p p ((.c, m.getLsbD 7) :: zn (s.cpu.a ||| r)) ∧
          exec f.instr s = .next (f.modified s { s.cpu with a := s.cpu.a ||| r, p := p } r))
      ∧ (∀ f ∈ rlaForms v a w,
        let m := f.src s
        let r := BitVec.ofNat 8 (2 * m.toNat + c)
        f.Encodes ∧ ∃ p, FlagsAre s.cpu.p p ((.c, m.getLsbD 7) :: zn (s.cpu.a &&& r)) ∧
          exec f.instr s = .next (f.modified s { s.cpu with a := s.cpu.a &&& r, p := p } r))
      ∧ (∀ f ∈ sreForms v a w,
        let m := f.src s
        let r := BitVec.ofNat 8 (m.toNat / 2)
        f.Encodes ∧ ∃ p, FlagsAre s.cpu.p p ((.c, m.getLsbD 0) :: zn (s.cpu.a ^^^ r)) ∧
          exec f.instr s = .next (f.modified s { s.cpu with a := s.cpu.a ^^^ r, p := p } r))
      ∧ (∀ f ∈ rraForms v a w,
        let m := f.src s
        let r := BitVec.ofNat 8 (m.toNat / 2 + 128 * c)
        let t := BitVec.ofNat 8 (sum s.cpu.a r (m.getLsbD 0))
        f.Encodes ∧ ∃ p, FlagsAre s.cpu.p p (added s.cpu.a r (m.getLsbD 0) t) ∧
          exec f.instr s = .next (f.modified s { s.cpu with a := t, p := p } r))
      ∧ (∀ f ∈ dcpForms v a w, f.Encodes ∧ ∃ p, FlagsAre s.cpu.p p (compared s.cpu.a (f.src s - 1)) ∧
        exec f.instr s = .next (f.modified s { s.cpu with p := p } (f.src s - 1)))
      ∧ ∀ f ∈ iscForms v a w,
        let r := f.src s + 1
        let b := flagOf s.cpu.p .c
        let t := BitVec.ofInt 8 (difference s.cpu.a r b)
        f.Encodes ∧ ∃ p, FlagsAre s.cpu.p p (subtracted s.cpu.a r b t) ∧
          exec f.instr s = .next (f.modified s { s.cpu with a := t, p := p } r)

/-- SAX stores A AND X with no flag and no read of its target; LAX loads A and X; ANC is AND, then C from N; ALR is AND, then a
shift of A to the right (46 R267 to R270). -/
def Obligations.PairAndAndResults : Prop :=
  ∀ (v a : Byte) (w : Addr) (s : State),
    let t := s.cpu.a &&& v
    let r := BitVec.ofNat 8 (t.toNat / 2)
    (∀ f ∈ saxForms v a w, f.Encodes ∧ exec f.instr s = .next (f.stored s (s.cpu.a &&& s.cpu.x)))
      ∧ (∀ f ∈ laxForms v a w, f.Encodes ∧ ∃ p, FlagsAre s.cpu.p p (zn (f.src s)) ∧
        exec f.instr s = .next (f.loaded s { s.cpu with a := f.src s, x := f.src s, p := p }))
      ∧ (∀ f ∈ ancForms v a w, f.Encodes ∧ ∃ p, FlagsAre s.cpu.p p ((.c, t.getLsbD 7) :: zn t) ∧
        exec f.instr s = .next (f.loaded s { s.cpu with a := t, p := p }))
      ∧ ∀ f ∈ alrForms v a w, f.Encodes ∧ ∃ p, FlagsAre s.cpu.p p ((.c, t.getLsbD 0) :: zn r) ∧
        exec f.instr s = .next (f.loaded s { s.cpu with a := r, p := p })

/-- The unofficial NOPs run their addressing mode and make no access to the effective address; the 22 undefined opcodes do
nothing in 1 cycle (46 R272, R273). No register, flag or memory changes. That no read is made, and that an undefined
opcode has no operand bytes, are the spec's own decisions D3 and D4. That an undefined opcode leaves the latent operand state
as the implied mode does is the model's choice (log 23, DEDUCED); an immediate *NOP's byte is not read (log 5, DEDUCED). -/
def Obligations.NoOperationResults : Prop :=
  ∀ (v a : Byte) (w : Addr) (s : State),
    (∀ f ∈ nopUForms v a w, f.Encodes ∧ exec f.instr s = .next (f.quiet s s.cpu))
      ∧ ∀ op : UndefOpcode, encode (.undef op) = [op.byte] ∧ exec (.undef op) s = .next (implied s s.cpu 1)

-- Memory frames. `peek s a` is the byte a read of `a` would return.

namespace Sys2Proof.Claims

/-- The address an instruction reads as data with what may be a side effect, if it reads one: the operand of the
instructions that load it (40 R180); implied, immediate, store, *NOP and control instructions load none. -/
def loadsAt (i : Instr) (s : State) : Option Addr :=
  if i.mnemonic ∈ [Mnemonic.lda, .ldx, .ldy, .adc, .sbc, .cmp, .cpx, .cpy, .and, .eor, .ora, .bit, .lax, .inc, .dec, .asl,
      .lsr, .rol, .ror, .slo, .rla, .sre, .rra, .dcp, .isc]
    ∧ i.operand ≠ .acc ∧ (∀ v, i.operand ≠ .imm v) then some (eaOf i s) else none

/-- The addresses of an indirect jump's pointer; every other pointer is in page 0. -/
def pointerAt (i : Instr) : List Addr :=
  match i.operand with
  | .ind p => [p, if p.toNat % 256 = 255 then p - 255 else p + 1]
  | _ => []

/-- The instruction's data reads have no side effect (20 R89). -/
def ReadsQuietly (i : Instr) (s : State) : Prop :=
  (∀ a ∈ (loadsAt i s).toList, readHasSideEffect a = false) ∧ ∀ a ∈ pointerAt i, readHasSideEffect a = false

/-- The stack bytes an instruction pushes, by their addresses in work RAM. -/
def pushesAt (i : Instr) (s : State) : List Nat :=
  if i.mnemonic ∈ [Mnemonic.pha, .php] then [stackByte s.cpu.s]
  else if i.mnemonic = .jsr then [stackByte s.cpu.s, stackByte (s.cpu.s - 1)]
  else if i.mnemonic = .brk then [stackByte s.cpu.s, stackByte (s.cpu.s - 1), stackByte (s.cpu.s - 2)]
  else []

end Sys2Proof.Claims

/-- An instruction that stores nothing leaves every byte the CPU can read as it was, its pushed stack bytes and the
mirrors of those apart, if its data reads have no side effect; whatever they read, work RAM but for those bytes, the
cartridge and the PPU's own memories stay. -/
def Obligations.NonStoringInstructionsKeepMemory : Prop :=
  ∀ i s t, exec i s = .next t → ¬ Stores i →
    (∀ n, n ∉ pushesAt i s → t.wram.read n = s.wram.read n)
      ∧ t.cart = s.cart ∧ t.ppu.nt = s.ppu.nt ∧ t.ppu.pal = s.ppu.pal ∧ t.ppu.oam = s.ppu.oam
      ∧ (ReadsQuietly i s → ∀ a : Addr, ¬ (a.toNat < 0x2000 ∧ a.toNat % 0x800 ∈ pushesAt i s) → peek t a = peek s a)

/-- An instruction that stores changes only what is stored at its effective address, which is computed as its meaning
computes it: in work RAM one byte, seen at its four mirrors; in PRG-RAM one byte; at $8000 and up no byte below $6000; at a
PPU register nothing outside $2000-$3FFF; at a controller port nothing but the controllers; at $4014 and where no device or
memory takes the write, nothing. -/
def Obligations.StoringInstructionsChangeOnlyTheirCell : Prop :=
  ∀ i s t, exec i s = .next t → Stores i →
    let ea := eaOf i s
    (ea.toNat < 0x2000 → ∀ a : Addr, ¬ (a.toNat < 0x2000 ∧ a.toNat % 0x800 = ea.toNat % 0x800) → peek t a = peek s a)
      ∧ (0x2000 ≤ ea.toNat → ea.toNat < 0x4000 →
          ∀ a : Addr, ¬ (0x2000 ≤ a.toNat ∧ a.toNat < 0x4000) → peek t a = peek s a)
      ∧ (ea = 0x4016 ∨ ea = 0x4017 → ∀ a : Addr, a ≠ 0x4016 → a ≠ 0x4017 → peek t a = peek s a)
      ∧ (0x4000 ≤ ea.toNat → ea.toNat < 0x6000 → ea ≠ 0x4016 → ea ≠ 0x4017 → ∀ a : Addr, peek t a = peek s a)
      ∧ (0x6000 ≤ ea.toNat → ea.toNat < 0x8000 → ∀ a : Addr, a ≠ ea → peek t a = peek s a)
      ∧ (0x8000 ≤ ea.toNat → ∀ a : Addr, a.toNat < 0x6000 → peek t a = peek s a)

-- The CPU bus (file 20).

/-- What a CPU read returns, range by range: work RAM mirrored four times, the PPU registers mirrored every 8, the
controllers, the write-only DMA port as 0, the cartridge from $4020, and 0 where no device claims the address (20 R70,
R72, R74, R76 to R78, R80, R82). -/
def Obligations.BusReadValues : Prop :=
  ∀ (s : State) (a : Addr),
    (a.toNat < 0x2000 → peek s a = s.wram.read (a.toNat % 0x800))
      ∧ (0x2000 ≤ a.toNat → a.toNat < 0x4000 → peek s a = (Ppu.readRegister s.cart s.ppu (a.toNat % 8)).1)
      ∧ peek s 0x4016 = ((s.pads.shift1 &&& 1) ||| 0x40) ∧ peek s 0x4017 = ((s.pads.shift2 &&& 1) ||| 0x40)
      ∧ (0x4020 ≤ a.toNat → peek s a = s.cart.cpuRead a)
      ∧ (0x4000 ≤ a.toNat → a.toNat < 0x4020 → a ≠ 0x4016 → a ≠ 0x4017 → peek s a = 0)

/-- A read of the addresses that 20 R89 does not name changes nothing; no read changes the CPU, work RAM, the cartridge or the
PPU's memories. -/
def Obligations.OnlyNamedReadsHaveSideEffects : Prop :=
  ∀ (s : State) (a : Addr),
    ((memRead s a).2 = { s with ppu := (memRead s a).2.ppu, pads := (memRead s a).2.pads })
      ∧ (memRead s a).2.ppu.nt = s.ppu.nt ∧ (memRead s a).2.ppu.pal = s.ppu.pal ∧ (memRead s a).2.ppu.oam = s.ppu.oam
      ∧ (¬ (0x2000 ≤ a.toNat ∧ a.toNat < 0x4000 ∧ (a.toNat % 8 = 2 ∨ a.toNat % 8 = 7)) → a ≠ 0x4016 → a ≠ 0x4017 →
          (memRead s a).2 = s)

/-- Work RAM reads back what was last written there, at each of its four mirrors, and every other byte reads as before (20 R76).
PRG-RAM, where present, reads back what was last written; absent, it reads 0 and drops writes; writes to $4020-$5FFF and to the
unclaimed addresses are dropped (20 R71, R74, R78; 21 R112, R113), and so is a write to $4017 (20 R81, the spec's decision D14). A write to work RAM or to
PRG-RAM changes its one byte there and nothing else of the machine (20 R97; the PRG-RAM bank of the MMC1 is the spec's decision
D35). -/
def Obligations.MemoryReadsBackWhatWasWritten : Prop :=
  ∀ (s : State) (a : Addr) (v : Byte),
    let bank := if s.cart.mapper = .mmc1 ∧ s.cart.chrIsRam = true then s.cart.mmc1.chr0.toNat / 4 % 4 else 0
    (a.toNat < 0x2000 → memWrite s a v = { s with wram := s.wram.write (a.toNat % 0x800) v })
      ∧ (0x6000 ≤ a.toNat → a.toNat < 0x8000 → s.cart.prgRamPresent = true →
        memWrite s a v = { s with cart := { s.cart with prgRam := s.cart.prgRam.write (bank * 0x2000 + a.toNat % 0x2000) v } })
      ∧ (a.toNat < 0x2000 → ∀ b : Addr,
        peek (memWrite s a v) b = if b.toNat < 0x2000 ∧ b.toNat % 0x800 = a.toNat % 0x800 then v else peek s b)
      ∧ (0x6000 ≤ a.toNat → a.toNat < 0x8000 → s.cart.prgRamPresent = true → ∀ b : Addr,
        peek (memWrite s a v) b = if b = a then v else peek s b)
      ∧ (0x6000 ≤ a.toNat → a.toNat < 0x8000 → s.cart.prgRamPresent = false → memWrite s a v = s ∧ peek s a = 0)
      ∧ (0x4000 ≤ a.toNat → a.toNat < 0x6000 → a ≠ 0x4014 → a ≠ 0x4016 → memWrite s a v = s)

namespace Sys2Proof.Claims

/-- `n` reads of an address, one after the other. -/
def readTimes (a : Addr) : Nat → State → State
  | 0, s => s
  | n + 1, s => readTimes a n (memRead s a).2

end Sys2Proof.Claims

/-- A write of $4016 sets the strobe to its bit 0, whatever bits 7 to 1 are, and latches both players' committed buttons when the
strobe goes from 1 to 0 and at no other time; a read of $4016 gives player 1's low bit with bit 6 set and shifts a 1 into that
buffer, a read of $4017 does the same for player 2; none of them changes anything else (20 R79, R80). So after the strobe goes from
1 to 0 the reads give the committed buttons in bit 0, A first, and 1 from the ninth read on. That only the falling edge latches,
and that a read shifts whatever the strobe is, are the spec's decision D15. -/
def Obligations.ControllersShiftOutTheCommittedButtons : Prop :=
  (∀ (s : State) (v : Byte),
    let p := s.pads
    let falls := p.strobe = true ∧ v.getLsbD 0 = false
    let next := fun b : Byte => BitVec.ofNat 8 (128 + b.toNat / 2)
    memWrite s 0x4016 v =
        { s with pads := { p with
            strobe := v.getLsbD 0
            shift1 := if falls then p.committed1 else p.shift1
            shift2 := if falls then p.committed2 else p.shift2 } }
      ∧ memRead s 0x4016 =
        (BitVec.ofNat 8 (0x40 + p.shift1.toNat % 2), { s with pads := { p with shift1 := next p.shift1 } })
      ∧ memRead s 0x4017 =
        (BitVec.ofNat 8 (0x40 + p.shift2.toNat % 2), { s with pads := { p with shift2 := next p.shift2 } }))
    ∧ ∀ (s : State) (n : Nat) (v w : Byte), v.getLsbD 0 = true → w.getLsbD 0 = false →
      let t := memWrite (memWrite s 0x4016 v) 0x4016 w
      peek (readTimes 0x4016 n t) 0x4016 = 0x40 ||| (if n < 8 then (if s.pads.committed1.getLsbD n then 1 else 0) else 1)
        ∧ peek (readTimes 0x4017 n t) 0x4017 =
            0x40 ||| (if n < 8 then (if s.pads.committed2.getLsbD n then 1 else 0) else 1)

namespace Sys2Proof.Claims

/-- `n` CPU ticks. -/
def cpuTicks : Nat → State → Result
  | 0, s => .next s
  | n + 1, s =>
    match cpuTick s with
    | .next t => cpuTicks n t
    | .fault e => .fault e
    | .refused e => .refused e

end Sys2Proof.Claims

/-- A write of $4014 latches the source page and schedules 513 ticks, or 514 when the tick count is odd (20 R83; which count is the
spec's decision D10). An OAM DMA from a page whose reads have no side effect takes exactly its scheduled ticks, copies the page's 256 bytes to OAM
from the current OAMADDR on, wrapping, and leaves OAMADDR where it was; no instruction runs, and nothing else changes but
the tick count and the DMA's own registers (20 R83 to R85). Only CPU ticks are counted: the PPU's dots between them, which with
rendering enabled move OAMADDR (70 R402), are left out. -/
def Obligations.OamDmaCopiesAPage : Prop :=
  (∀ (s : State) (v : Byte), memWrite s 0x4014 v =
      { s with cpu := { s.cpu with dmaPage := v, dmaRemaining := if s.cpu.cycleCount % 2 = 0 then 513 else 514 } })
    ∧ ∀ (s : State), (s.cpu.dmaRemaining = 513 ∨ s.cpu.dmaRemaining = 514) →
    (∀ i < 256, readHasSideEffect (w16 s.cpu.dmaPage (BitVec.ofNat 8 i)) = false) →
    ∃ oam : Memory,
      cpuTicks s.cpu.dmaRemaining s = .next
          { s with
            cpu := { s.cpu with
              dmaRemaining := 0, dmaBuffer := peek s (w16 s.cpu.dmaPage 0xFF)
              cycleCount := s.cpu.cycleCount + s.cpu.dmaRemaining }
            ppu := { s.ppu with oam := oam } }
        ∧ ∀ i < 256, oam.read ((s.ppu.oamaddr.toNat + i) % 256) = peek s (w16 s.cpu.dmaPage (BitVec.ofNat 8 i))

-- The NMI and the returns (files 44 and 60).

/-- A CPU tick with no DMA pending, at an instruction boundary, with an NMI latched, takes the NMI and runs no instruction:
PC is pushed high byte first, then P with bit 4 clear and bit 5 set; I is set whatever it was, PC comes from $FFFA/B, the
latch is cleared, and of the 7 cycles one passes in this tick (60 R350, R351, R356; 40 R160). -/
def Obligations.NmiIsTakenAtAnInstructionBoundary : Prop :=
  ∀ (s : State), s.cpu.dmaRemaining = 0 → s.cpu.cyclesUntilNext.toInt ≤ 0 → s.cpu.nmiPending = true →
    let sp := s.cpu.s
    ∃ p, FlagsAre s.cpu.p p [(.i, true)] ∧
      cpuTick s = .next
        { s with
          cpu := { s.cpu with
            pc := w16 (s.cart.cpuRead 0xFFFB) (s.cart.cpuRead 0xFFFA), s := sp - 3, p := p, nmiPending := false
            cyclesUntilNext := 6, cycleCount := s.cpu.cycleCount + 1 }
          wram := ((s.wram.write (stackByte sp) (hi s.cpu.pc)).write (stackByte (sp - 1)) (lo s.cpu.pc)).write
            (stackByte (sp - 2)) ((s.cpu.p &&& 0xEF) ||| 0x20) }

/-- The priorities of a CPU tick in the other cases: a pending DMA takes the tick whatever else is pending, and inside an
instruction nothing happens but the count (40 R160, 60 R356). -/
def Obligations.DmaFirstAndInstructionsAreNotInterrupted : Prop :=
  ∀ (s : State),
    (0 < s.cpu.dmaRemaining → ∃ t, cpuTick s = .next t ∧ t.cpu.dmaRemaining = s.cpu.dmaRemaining - 1
        ∧ t.cpu.pc = s.cpu.pc ∧ t.cpu.a = s.cpu.a ∧ t.cpu.x = s.cpu.x ∧ t.cpu.y = s.cpu.y ∧ t.cpu.s = s.cpu.s
        ∧ t.cpu.p = s.cpu.p ∧ t.cpu.cyclesUntilNext = s.cpu.cyclesUntilNext ∧ t.cpu.nmiPending = s.cpu.nmiPending
        ∧ t.wram = s.wram ∧ t.cpu.cycleCount = s.cpu.cycleCount + 1)
      ∧ (s.cpu.dmaRemaining = 0 → 0 < s.cpu.cyclesUntilNext.toInt →
        cpuTick s = .next { s with cpu := { s.cpu with
          cyclesUntilNext := s.cpu.cyclesUntilNext - 1, cycleCount := s.cpu.cycleCount + 1 } })

namespace Sys2Proof.Claims

/-- In `v` S and the `n` stack bytes pulled next are as in `u`. -/
def SameStack (n : Nat) (u v : State) : Prop :=
  v.cpu.s = u.cpu.s ∧ ∀ k, 1 ≤ k → k ≤ n →
    v.wram.read (stackByte (u.cpu.s + BitVec.ofNat 8 k)) = u.wram.read (stackByte (u.cpu.s + BitVec.ofNat 8 k))

/-- Bits 4 and 5 of P are in `v` as in `u` (10 R25: they never change). -/
def SameBreakBits (u v : State) : Prop :=
  flagOf v.cpu.p .b = flagOf u.cpu.p .b ∧ flagOf v.cpu.p .u = flagOf u.cpu.p .u

end Sys2Proof.Claims

/-- Returning undoes entering, from every later state in which S, the pushed stack bytes and bits 4 and 5 of P are as the entry
left them, whatever else the handler changed: after an NMI entry or a BRK, RTI gives back all of P and S, and PC exactly for
the NMI and one further for BRK; after a JSR, RTS gives back S and continues after the JSR (44 R227 to R230, 60 R358). -/
def Obligations.ReturnsUndoEntries : Prop :=
  (∀ s v, SameStack 3 (nmiEntry s) v → SameBreakBits s v →
      ∃ t, exec .rti v = .next t ∧ t.cpu.pc = s.cpu.pc ∧ t.cpu.p = s.cpu.p ∧ t.cpu.s = s.cpu.s)
    ∧ (∀ s u v, exec .brk s = .next u → SameStack 3 u v → SameBreakBits s v →
        ∃ t, exec .rti v = .next t ∧ t.cpu.pc = s.cpu.pc + 1 ∧ t.cpu.p = s.cpu.p ∧ t.cpu.s = s.cpu.s)
    ∧ ∀ s w u v, exec (.jsrAbs w) s = .next u → SameStack 2 u v →
        ∃ t, exec .rts v = .next t ∧ t.cpu.pc = s.cpu.pc ∧ t.cpu.s = s.cpu.s

-- The PPU's registers (file 50).

namespace Sys2Proof.Claims

/-- `a` is a mirror of PPU register `r` (20 R77). -/
def IsRegister (a : Addr) (r : Nat) : Prop := 0x2000 ≤ a.toNat ∧ a.toNat < 0x4000 ∧ a.toNat % 8 = r

/-- A write of `d` to `a` changes only the PPU, to `p`. -/
def WritesPpu (s : State) (a : Addr) (d : Byte) (p : Ppu) : Prop := memWrite s a d = { s with ppu := p }

end Sys2Proof.Claims

/-- The control registers at all their mirrors: PPUCTRL writes its five bits and t[11:10], PPUMASK its fields, PPUSTATUS
ignores a write, OAMADDR is set, OAMDATA stores and counts; a PPUSTATUS read gives the three flags and clears vblank and w; an
OAMDATA read changes nothing; the write-only registers read as 0 and change nothing (50 R288 to R295, 20 R77; the zeros are the
spec's decision D16). -/
def Obligations.PpuControlRegisters : Prop :=
  ∀ (s : State) (a : Addr) (d : Byte),
    let p := s.ppu
    (IsRegister a 0 → ∃ t, (∀ i < 15, t.getLsbD i = if i = 10 then d.getLsbD 0 else if i = 11 then d.getLsbD 1
          else p.t.getLsbD i) ∧
        WritesPpu s a d
          { p with
            t := t
            ctrl :=
              { inc32 := d.getLsbD 2, sprTable := d.getLsbD 3, bgTable := d.getLsbD 4, spr16 := d.getLsbD 5,
                nmiEnable := d.getLsbD 7 } })
      ∧ (IsRegister a 1 → ∃ e : BitVec 3, (∀ i < 3, e.getLsbD i = d.getLsbD (5 + i)) ∧
        WritesPpu s a d
          { p with
            mask :=
              { grayscale := d.getLsbD 0, showBgLeft := d.getLsbD 1, showSprLeft := d.getLsbD 2,
                showBg := d.getLsbD 3, showSpr := d.getLsbD 4, emphasis := e } })
      ∧ (IsRegister a 2 → WritesPpu s a d p
        ∧ peek s a = BitVec.ofNat 8 (128 * num p.status.vblank + 64 * num p.status.spr0Hit + 32 * num p.status.sprOverflow)
        ∧ (memRead s a).2 = { s with ppu := { p with w := false, status := { p.status with vblank := false } } })
      ∧ (IsRegister a 3 → WritesPpu s a d { p with oamaddr := d })
      ∧ (IsRegister a 4 →
        WritesPpu s a d { p with oam := p.oam.write p.oamaddr.toNat d, oamaddr := p.oamaddr + 1 }
        ∧ memRead s a = (p.oam.read p.oamaddr.toNat, s))
      ∧ ((∃ r ∈ [0, 1, 3, 5, 6], IsRegister a r) → memRead s a = (0, s))

/-- PPUSCROLL and PPUADDR at all their mirrors, first and second write by w: the bits of t, x and v they write, and no others
(50 R296, R298; the bit places of the second scroll write are the spec's decision D18). -/
def Obligations.PpuScrollAndAddressWrites : Prop :=
  ∀ (s : State) (a : Addr) (d : Byte),
    let p := s.ppu
    (IsRegister a 5 → p.w = false → ∃ (x : BitVec 3) (t : BitVec 15), (∀ i < 3, x.getLsbD i = d.getLsbD i) ∧
        (∀ i < 15, t.getLsbD i = if i < 5 then d.getLsbD (3 + i) else p.t.getLsbD i) ∧
        WritesPpu s a d { p with x := x, t := t, w := true })
      ∧ (IsRegister a 5 → p.w = true → ∃ t : BitVec 15,
        (∀ i < 15, t.getLsbD i = if 12 ≤ i then d.getLsbD (i - 12) else if 5 ≤ i ∧ i < 10 then d.getLsbD (i - 2)
          else p.t.getLsbD i) ∧ WritesPpu s a d { p with t := t, w := false })
      ∧ (IsRegister a 6 → p.w = false → ∃ t : BitVec 15,
        (∀ i < 15, t.getLsbD i = if i = 14 then false else if 8 ≤ i then d.getLsbD (i - 8) else p.t.getLsbD i) ∧
        WritesPpu s a d { p with t := t, w := true })
      ∧ (IsRegister a 6 → p.w = true → ∃ t : BitVec 15,
        (∀ i < 15, t.getLsbD i = if i < 8 then d.getLsbD i else p.t.getLsbD i) ∧
        WritesPpu s a d { p with t := t, v := t, w := false })

/-- PPUDATA at all its mirrors: a write stores at v on the PPU bus, a read gives the buffer below the palette and the palette byte
in it, refilling the buffer; each moves v by 1 or 32, wrapping at 15 bits (50 R297, R299, R300). On that bus the pattern tables
are the cartridge's CHR memory at the mapper's offset: CHR-RAM reads back what was written, at every address of the same offset,
and no other byte changes; a write leaves CHR-ROM as it was (50 R281, 21 R115; the latter is the spec's decision D48). -/
def Obligations.PpuDataPort : Prop :=
  (∀ (s : State) (a : Addr) (d : Byte), IsRegister a 7 →
    let p := s.ppu
    let n := p.v.toNat % 0x4000
    let v' := BitVec.ofNat 15 (p.v.toNat + (if p.ctrl.inc32 then 32 else 1))
    let at' := fun k : Nat => ppuBusRead s.cart p (BitVec.ofNat 16 k)
    let b := ppuBusWrite s.cart p (BitVec.ofNat 16 n) d
    memWrite s a d = { s with cart := b.1, ppu := { b.2 with v := v' } }
      ∧ memRead s a = (if n < 0x3F00 then p.readBuffer else at' n,
          { s with ppu := { p with v := v', readBuffer := if n < 0x3F00 then at' n else at' (n - 0x1000) } }))
    ∧ ∀ (c : Cart) (p : Ppu) (a : Addr) (d : Byte),
      let n := a.toNat % 0x4000
      let w := ppuBusWrite c p a d
      n < 0x2000 →
        ppuBusRead c p a = c.chr.read (c.chrOffset n)
          ∧ (c.chrIsRam = true → ∀ b : Addr, ppuBusRead w.1 w.2 b =
              if b.toNat % 0x4000 < 0x2000 ∧ c.chrOffset (b.toNat % 0x4000) = c.chrOffset n then d else ppuBusRead c p b)
          ∧ (c.chrIsRam = false → w = (c, p))

/-- A PPU bus access in the nametables reaches the physical table that the mirroring in force at the access selects (50 R282); that
$3000-$3EFF are $2000-$2EFF is the spec's own decision D19 (50 R280). -/
def Obligations.NametableMirroring : Prop :=
  ∀ (c : Cart) (p : Ppu) (a : Addr) (d : Byte),
    let n := if a.toNat < 0x3000 then a.toNat else a.toNat - 0x1000
    let q := n / 0x400 % 4
    let table := match c.mirroring with
      | .singleLower => 0
      | .singleUpper => 1
      | .horizontal => q / 2
      | .vertical => q % 2
      | .fourScreen => q
    0x2000 ≤ a.toNat → a.toNat < 0x3F00 →
      ppuBusRead c p a = p.nt.read (0x400 * table + n % 0x400)
        ∧ ppuBusWrite c p a d = (c, { p with nt := p.nt.write (0x400 * table + n % 0x400) d })

/-- A palette byte written at one address of $3F00-$3FFF reads back at each address of the same entry, the entries being mirrored
every 32 and $3F10, $3F14, $3F18 and $3F1C being $3F00, $3F04, $3F08 and $3F0C, and no other entry changes (50 R283). -/
def Obligations.PaletteMirroring : Prop :=
  ∀ (c : Cart) (p : Ppu) (i j : Nat) (d : Byte), i < 256 → j < 256 →
    let entry := fun k : Nat => if k % 4 = 0 then k % 16 else k % 32
    let r := ppuBusWrite c p (BitVec.ofNat 16 (0x3F00 + i)) d
    ppuBusRead r.1 r.2 (BitVec.ofNat 16 (0x3F00 + j)) =
      if entry i = entry j then d else ppuBusRead c p (BitVec.ofNat 16 (0x3F00 + j))

-- The PPU's dots (file 51).

namespace Sys2Proof.Claims

/-- The lines on which the PPU's pipeline runs (51 R312). -/
abbrev OnRenderingLine (p : Ppu) : Prop := -1 ≤ p.scanline ∧ p.scanline ≤ 239

/-- The dots on which the background is shifted and fetched (51 R310, R314). -/
abbrev OnFetchDot (p : Ppu) : Prop := (1 ≤ p.dot ∧ p.dot ≤ 256) ∨ (321 ≤ p.dot ∧ p.dot ≤ 336)

/-- The four background shift registers and the four latches (10 R45, R46). -/
def background (p : Ppu) : (BitVec 16 × BitVec 16 × BitVec 16 × BitVec 16) × (Byte × Byte × BitVec 2 × Byte) :=
  ((p.bgPatLo, p.bgPatHi, p.bgAttrLo, p.bgAttrHi), (p.latPatLo, p.latPatHi, p.latAttr, p.latTile))

/-- A background register shifted left by one, its low byte then replaced by `load` on a reload (51 R314, R316). -/
def shifted (reload : Bool) (reg : BitVec 16) (load : Byte) : BitVec 16 :=
  BitVec.ofNat 16 (if reload then 2 * reg.toNat / 256 * 256 + load.toNat else 2 * reg.toNat)

end Sys2Proof.Claims

/-- The increments of v on a rendering line with rendering enabled, and where v stays. On every eighth fetch dot coarse X counts, wrapping from 31 to 0
with a flip of the horizontal nametable bit, and but for dot 256 nothing else of v changes (51 R319; the wrap is the spec's
decision D27). On dot 256 fine Y counts as well and carries into coarse Y, which wraps from 29 to 0 with a flip of the vertical
nametable bit and from 31 to 0 without (51 R320). With rendering disabled v stays on those dots, which is the spec's own
decision D21 (51 R311). On every other dot of the frame, the dots of the two copies apart, v stays (51 R310, R319 to R321). -/
def Obligations.VerticalIncrement : Prop :=
  ∀ (s : State),
    let fineY := fun v : BitVec 15 => v.toNat / 4096
    let coarseY := fun v : BitVec 15 => v.toNat / 32 % 32
    let tableY := fun v : BitVec 15 => v.toNat / 2048 % 2
    let coarseX := fun v : BitVec 15 => v.toNat % 32
    let tableX := fun v : BitVec 15 => v.toNat / 1024 % 2
    let v := s.ppu.v
    let w := (ppuTick s).ppu.v
    let on := s.ppu.mask.showBg = true ∨ s.ppu.mask.showSpr = true
    let eighth := OnRenderingLine s.ppu ∧ OnFetchDot s.ppu ∧ s.ppu.dot % 8 = 0
    let copies := OnRenderingLine s.ppu ∧ (s.ppu.dot = 257 ∨ (s.ppu.scanline = -1 ∧ 280 ≤ s.ppu.dot ∧ s.ppu.dot ≤ 304))
    (eighth → ¬ on → w = v)
      ∧ (¬ eighth → ¬ copies → w = v)
      ∧ (eighth → on →
          coarseX w = (if coarseX v = 31 then 0 else coarseX v + 1)
            ∧ tableX w = (if coarseX v = 31 then 1 - tableX v else tableX v)
            ∧ (s.ppu.dot ≠ 256 → fineY w = fineY v ∧ coarseY w = coarseY v ∧ tableY w = tableY v))
      ∧ (OnRenderingLine s.ppu → s.ppu.dot = 256 → on →
        (fineY v < 7 → fineY w = fineY v + 1 ∧ coarseY w = coarseY v ∧ tableY w = tableY v)
          ∧ (fineY v = 7 → fineY w = 0
            ∧ coarseY w = (if coarseY v = 29 ∨ coarseY v = 31 then 0 else coarseY v + 1)
            ∧ tableY w = if coarseY v = 29 then 1 - tableY v else tableY v))

/-- The copies from t: dot 257 of a rendering line copies the bits of $041F, dots 280 to 304 of line -1 those of $7BE0 (51 R321),
only with rendering enabled, which is the spec's own decision D21 (51 R311). And the background pipeline, which runs on the fetch
dots of a rendering line whatever the mask (D21): the four registers shift left by one; on the first dot of each eight the
latches are loaded into their low bytes and the tile number at v is read, on the third the attribute of its quadrant, on the
fifth and the seventh the two planes of the tile's current row; on every other dot of the frame all of it stays (51 R314 to
R318; the addresses, the attribute's spread and the shift before the fetch are the spec's decisions D26, D52 and D22). -/
def Obligations.ScrollCopies : Prop :=
  ∀ (s : State),
    let p := s.ppu
    let t := (ppuTick s).ppu
    (OnRenderingLine p → p.dot = 257 → ∀ i < 15,
        t.v.getLsbD i =
          if (p.mask.showBg || p.mask.showSpr) && (0x041F#15).getLsbD i then p.t.getLsbD i else p.v.getLsbD i)
      ∧ (p.scanline = -1 → 280 ≤ p.dot → p.dot ≤ 304 → ∀ i < 15,
        t.v.getLsbD i =
          if (p.mask.showBg || p.mask.showSpr) && (0x7BE0#15).getLsbD i then p.t.getLsbD i else p.v.getLsbD i)
      ∧ (¬ (OnRenderingLine p ∧ OnFetchDot p) → background t = background p)
      ∧ (OnRenderingLine p → OnFetchDot p →
        let v := p.v.toNat
        let k := (p.dot - 1) % 8
        let at' := fun n : Nat => ppuBusRead s.cart p (BitVec.ofNat 16 n)
        let row := (if p.ctrl.bgTable then 0x1000 else 0) + 16 * p.latTile.toNat + v / 4096
        let spread := fun b : Bool => if b then 0xFF#8 else 0#8
        t.bgPatLo = shifted (k == 0) p.bgPatLo p.latPatLo ∧ t.bgPatHi = shifted (k == 0) p.bgPatHi p.latPatHi
          ∧ t.bgAttrLo = shifted (k == 0) p.bgAttrLo (spread (p.latAttr.getLsbD 0))
          ∧ t.bgAttrHi = shifted (k == 0) p.bgAttrHi (spread (p.latAttr.getLsbD 1))
          ∧ t.latTile = (if k = 0 then at' (0x2000 + v % 0x1000) else p.latTile)
          ∧ t.latAttr.toNat = (if k = 2 then
              (at' (0x23C0 + v / 0x400 % 4 * 0x400 + v / 128 % 8 * 8 + v / 4 % 8)).toNat
                / 2 ^ (v / 64 % 2 * 4 + v / 2 % 2 * 2) % 4
              else p.latAttr.toNat)
          ∧ t.latPatLo = (if k = 4 then at' row else p.latPatLo)
          ∧ t.latPatHi = (if k = 6 then at' (row + 8) else p.latPatHi))

/-- With rendering disabled no dot moves v or OAMADDR or sets sprite overflow, and no sprite-0 hit occurs (51 R311, R322, R326, R332).
That v and OAMADDR stay is the spec's own decision D21 (51 R311, R322). -/
def Obligations.RenderingOffFreezesTheScroll : Prop :=
  ∀ (s : State), s.ppu.mask.showBg = false → s.ppu.mask.showSpr = false →
    let t := ppuTick s
    t.ppu.v = s.ppu.v ∧ t.ppu.oamaddr = s.ppu.oamaddr
      ∧ (t.ppu.status.sprOverflow = true → s.ppu.status.sprOverflow = true)
      ∧ (t.ppu.status.spr0Hit = true → s.ppu.status.spr0Hit = true)

namespace Sys2Proof.Claims

/-- The pattern address of a row of a sprite, in 8×8 or 8×16 form (51 R324). -/
def spriteRowAddr (p : Ppu) (tile : Byte) (row : Int) : Addr :=
  BitVec.ofInt 16 <|
    if p.ctrl.spr16 then
      (if tile.getLsbD 0 then 0x1000 else 0) + 16 * (2 * (tile.toNat / 2 : Nat) + (if 8 ≤ row then 1 else 0))
        + (if 8 ≤ row then row - 8 else row)
    else (if p.ctrl.sprTable then 0x1000 else 0) + 16 * tile.toNat + row

/-- Slot `k` as dot 257 loads it for the next line: transparent beyond the records found and on line -1, else the two pattern
bytes of the record's row, upside down with attribute bit 7 and mirrored with bit 6 (51 R323). -/
def FetchesSlot (c : Cart) (p : Ppu) (k : Nat) (slot : SpriteSlot) : Prop :=
  let record := fun j : Nat => p.oam2.getD (4 * k + j) 0xFF
  let line := p.scanline - (record 0).toNat
  let row := if (record 2).getLsbD 7 then (if p.ctrl.spr16 then 16 else 8) - 1 - line else line
  let a := spriteRowAddr p (record 1) row
  let column := fun i : Nat => if (record 2).getLsbD 6 then 7 - i else i
  if p.scanline = -1 ∨ p.oam2Count ≤ k then slot = ⟨0, 0, 0, 0xFF⟩
  else slot.attr = record 2 ∧ slot.x = record 3 ∧ ∀ i < 8,
    slot.lo.getLsbD i = (ppuBusRead c p a).getLsbD (column i)
      ∧ slot.hi.getLsbD i = (ppuBusRead c p (a + 8)).getLsbD (column i)

end Sys2Proof.Claims

/-- The sprite pipeline. Dot 1 of a visible line clears secondary OAM (51 R325). Dot 65 copies the first eight OAM records that are
in range, in OAM order, and counts them; a ninth sets overflow if rendering is enabled; sprite 0 is noted when it is among them
(51 R326; that a range is the lines Y + 1 to Y + h is the spec's decision D24). On every other dot secondary OAM stays. Dot 257 of
a rendering line loads the slots (51 R323, R324; decisions D25 and D26). For a row outside the sprite's height, which comes only
of a change of the height after dot 65, that these formulas hold as they stand is the model's choice (log 19, DEDUCED). On dots 1
to 256 of a visible line each slot counts its X down or, at 0, shifts a column out (51 R330, D24); on every other dot the slots
stay. Dots 257 to 320 of a rendering line hold OAMADDR at 0 with rendering enabled (51 R322, decision D21); no other dot moves
it. -/
def Obligations.SpriteEvaluation : Prop :=
  ∀ (s : State),
    let p := s.ppu
    let t := (ppuTick s).ppu
    let visible := 0 ≤ p.scanline ∧ p.scanline ≤ 239
    let on := p.mask.showBg || p.mask.showSpr
    (visible → p.dot = 1 →
        t.oam2 = Vector.replicate 32 0xFF ∧ t.oam2Count = 0 ∧ t.sprite0InSecondary = false)
      ∧ (visible → p.dot = 65 →
        let h : Int := if p.ctrl.spr16 then 16 else 8
        let found := (List.range 64).filter fun i =>
          decide (0 ≤ p.scanline - (p.oam.read (4 * i)).toNat ∧ p.scanline - (p.oam.read (4 * i)).toNat < h)
        t.oam2Count = min 8 found.length
          ∧ (∀ n j, n < t.oam2Count → j < 4 → t.oam2[4 * n + j]? = some (p.oam.read (4 * found.getD n 0 + j)))
          ∧ t.status.sprOverflow = (p.status.sprOverflow || (decide (8 < found.length) && on))
          ∧ t.sprite0InSecondary = (p.sprite0InSecondary || found.contains 0))
      ∧ (OnRenderingLine p → p.dot = 257 →
        (∀ k < 8, ∃ slot, t.slots[k]? = some slot ∧ FetchesSlot s.cart p k slot)
          ∧ t.sprite0InScanline = (decide (p.scanline ≠ -1) && p.sprite0InSecondary))
      ∧ (visible → 1 ≤ p.dot → p.dot ≤ 256 → t.slots = p.slots.map fun slot =>
          if slot.x = 0 then
            { slot with lo := BitVec.ofNat 8 (2 * slot.lo.toNat), hi := BitVec.ofNat 8 (2 * slot.hi.toNat) }
          else { slot with x := slot.x - 1 })
      ∧ (¬ (visible ∧ 1 ≤ p.dot ∧ p.dot ≤ 256) → ¬ (OnRenderingLine p ∧ p.dot = 257) → t.slots = p.slots)
      ∧ (¬ (OnRenderingLine p ∧ p.dot = 257) → t.sprite0InScanline = p.sprite0InScanline)
      ∧ (¬ (visible ∧ (p.dot = 1 ∨ p.dot = 65)) →
        t.oam2 = p.oam2 ∧ t.oam2Count = p.oam2Count ∧ t.sprite0InSecondary = p.sprite0InSecondary)
      ∧ t.oamaddr =
          if OnRenderingLine p ∧ 257 ≤ p.dot ∧ p.dot ≤ 320 ∧ on = true then 0 else p.oamaddr

/-- A dot that sets sprite-0 hit is a visible one with both layers enabled, not on line 0, not in column 255, and not in the left
eight columns unless both layers show there (51 R332; the exclusions are the spec's decisions D25 and D51). -/
def Obligations.SpriteZeroHitExclusions : Prop :=
  ∀ (s : State), s.ppu.status.spr0Hit = false → (ppuTick s).ppu.status.spr0Hit = true →
    1 ≤ s.ppu.scanline ∧ s.ppu.scanline ≤ 239 ∧ 1 ≤ s.ppu.dot ∧ s.ppu.dot ≤ 255 ∧ s.ppu.mask.showBg = true
      ∧ s.ppu.mask.showSpr = true
      ∧ (s.ppu.dot ≤ 8 → s.ppu.mask.showBgLeft = true ∧ s.ppu.mask.showSprLeft = true)

namespace Sys2Proof.Claims

/-- The background's colour and palette at column `x`, from the shift registers of `q`; 0 where it is hidden (51 R329). -/
def backgroundAt (q : Ppu) (x : Nat) : Nat × Nat :=
  let k := 15 - q.x.toNat
  if q.mask.showBg = true ∧ (8 ≤ x ∨ q.mask.showBgLeft = true) then
    (2 * num (q.bgPatHi.getLsbD k) + num (q.bgPatLo.getLsbD k), 2 * num (q.bgAttrHi.getLsbD k) + num (q.bgAttrLo.getLsbD k))
  else (0, 0)

/-- The colour a slot shows (51 R330). -/
def slotColour (slot : SpriteSlot) : Nat := 2 * num (slot.hi.getLsbD 7) + num (slot.lo.getLsbD 7)

/-- Slot `k`. -/
def slotOf (p : Ppu) (k : Nat) : SpriteSlot := p.slots.toList.getD k SpriteSlot.transparent

/-- The slot that wins column `x`: the first with its counter at 0 and a colour (51 R330). -/
def spriteAt (p : Ppu) (x : Nat) : Option Nat :=
  if p.mask.showSpr = true ∧ (8 ≤ x ∨ p.mask.showSprLeft = true) then
    (List.range 8).find? fun k => decide ((slotOf p k).x = 0 ∧ slotColour (slotOf p k) ≠ 0)
  else none

/-- The palette entry of a pixel: the backdrop, the background's or the sprite's (51 R331). -/
def entryOf (bg : Nat × Nat) (sprite : Option SpriteSlot) : Nat :=
  match sprite with
  | none => if bg.1 = 0 then 0 else 4 * bg.2 + bg.1
  | some slot =>
    if bg.1 ≠ 0 ∧ slot.attr.getLsbD 5 = true then 4 * bg.2 + bg.1 else 16 + 4 * (slot.attr.toNat % 4) + slotColour slot

/-- The ARGB number of a palette byte (51 R333, R334), NTSC_PALETTE and GRAYSCALE_EFFECT being open. -/
def argbOf (m : PpuMask) (b : Byte) : Nat :=
  let i := BitVec.ofNat 6 b.toNat
  let e := 3 * (64 * m.emphasis.toNat + (if m.grayscale then Config.grayscaleEffect i else i).toNat)
  0xFF000000 + 0x10000 * (Config.ntscPalette e).toNat + 0x100 * (Config.ntscPalette (e + 1)).toNat
    + (Config.ntscPalette (e + 2)).toNat

end Sys2Proof.Claims

/-- Dots 1 to 256 of a visible line write the one pixel of their line and column; every other pixel stays, and on every other dot
the frame and rendering_sprite0 do (51 R310, R328). The pixel is the colour of the palette entry that the background, taken from the registers as this
dot's shift left them, and the first coloured sprite slot decide between them, and sprite-0 hit is raised when slot 0 with sprite
0 in it meets the background, line 0 and column 255 apart (51 R329 to R334; decisions D22 to D25, D28 to D30 and D51). The palette
and the grayscale effect are open (logs 7 and 8). -/
def Obligations.OnePixelForEachVisibleDot : Prop :=
  ∀ (s : State),
    let p := s.ppu
    let f := fun (q : Ppu) (y x : Nat) => FrameBuffer.pixel q.frameOut y x
    let t := (ppuTick s).ppu
    if 0 ≤ p.scanline ∧ p.scanline ≤ 239 ∧ 1 ≤ p.dot ∧ p.dot ≤ 256 then
      let x := p.dot - 1
      let bg := backgroundAt t x
      let k := spriteAt p x
      let entry := entryOf bg (k.map (slotOf p))
      (f t p.scanline.toNat x).toNat = argbOf p.mask (ppuBusRead s.cart p (BitVec.ofNat 16 (0x3F00 + entry)))
        ∧ (∀ y z, ¬ (y = p.scanline.toNat ∧ z = x) → f t y z = f p y z)
        ∧ t.renderingSprite0 = (decide (k = some 0) && p.sprite0InScanline)
        ∧ t.status.spr0Hit = (p.status.spr0Hit || (decide (bg.1 ≠ 0 ∧ k = some 0 ∧ x ≠ 255 ∧ p.scanline ≠ 0) && p.sprite0InScanline))
    else t.frameOut = p.frameOut ∧ t.renderingSprite0 = p.renderingSprite0

/-- A PPU dot touches the rest of the machine only through the NMI latch, set exactly on dot 1 of line 241 when it is enabled; vblank
is set there and, with both sprite flags, cleared on dot 1 of line -1, and no other dot clears any of the three (51 R313, R335,
R339). Sprite overflow is raised on no dot but dot 65 of a visible line, sprite-0 hit on none but dots 1 to 256 of one (51 R310,
R326, R332). Inside the PPU a dot leaves the palette, the nametables and OAM, t, fine X and w, PPUCTRL, PPUMASK and the read buffer
as they were (20 R97, 51 R310). -/
def Obligations.VblankAndNmiLine : Prop :=
  ∀ (s : State),
    let p := s.ppu
    let t := ppuTick s
    let entry := p.scanline = 241 ∧ p.dot = 1
    let clear := p.scanline = -1 ∧ p.dot = 1
    let visible := 0 ≤ p.scanline ∧ p.scanline ≤ 239
    t.cart = s.cart ∧ t.wram = s.wram ∧ t.pads = s.pads ∧ t.port = s.port
      ∧ t.cpu = { s.cpu with nmiPending := s.cpu.nmiPending || (decide entry && p.ctrl.nmiEnable) }
      ∧ (entry → t.ppu.status.vblank = true)
      ∧ (clear → t.ppu.status = ⟨false, false, false⟩)
      ∧ (¬ entry → ¬ clear → t.ppu.status.vblank = p.status.vblank)
      ∧ (¬ clear → (p.status.sprOverflow = true → t.ppu.status.sprOverflow = true)
        ∧ (p.status.spr0Hit = true → t.ppu.status.spr0Hit = true))
      ∧ (¬ (visible ∧ p.dot = 65) → t.ppu.status.sprOverflow = true → p.status.sprOverflow = true)
      ∧ (¬ (visible ∧ 1 ≤ p.dot ∧ p.dot ≤ 256) → t.ppu.status.spr0Hit = true → p.status.spr0Hit = true)
      ∧ t.ppu.pal = p.pal ∧ t.ppu.nt = p.nt ∧ t.ppu.oam = p.oam ∧ t.ppu.t = p.t ∧ t.ppu.x = p.x ∧ t.ppu.w = p.w
      ∧ t.ppu.ctrl = p.ctrl ∧ t.ppu.mask = p.mask ∧ t.ppu.readBuffer = p.readBuffer

namespace Sys2Proof.Claims

/-- `n` PPU dots. -/
def dots : Nat → State → State
  | 0, s => s
  | n + 1, s => dots n (ppuTick s)

end Sys2Proof.Claims

/-- A dot moves to the next one, after dot 340 to the next line, after line 260 to line -1 with one frame more and frame_ready set;
on an odd frame with rendering enabled line -1 ends with dot 339 (51 R336, R337; the test is the spec's decision D32). From the
first dot of a frame the PPU is back there, one frame further and with frame_ready set, after 262 lines of 341 dots,
or one dot fewer when the frame is odd and rendering is enabled, and not before (51 R336 to R338). -/
def Obligations.FrameLength : Prop :=
  (∀ (s : State),
    let p := s.ppu
    let t := (ppuTick s).ppu
    let skips := p.scanline = -1 ∧ p.dot = 339 ∧ p.frame % 2 = 1 ∧ (p.mask.showBg = true ∨ p.mask.showSpr = true)
    let lineEnds := p.dot = 340 ∨ skips
    let frameEnds := lineEnds ∧ p.scanline = 260
    t.dot = (if lineEnds then 0 else p.dot + 1)
      ∧ t.scanline = (if frameEnds then -1 else if lineEnds then p.scanline + 1 else p.scanline)
      ∧ t.frame = (if frameEnds then p.frame + 1 else p.frame)
      ∧ t.frameReady = (decide frameEnds || p.frameReady))
    ∧ ∀ (s : State), s.ppu.scanline = -1 → s.ppu.dot = 0 →
    let n := if s.ppu.frame % 2 = 1 ∧ (s.ppu.mask.showBg = true ∨ s.ppu.mask.showSpr = true) then 89341 else 89342
    let t := dots n s
    t.ppu.scanline = -1 ∧ t.ppu.dot = 0 ∧ t.ppu.frame = s.ppu.frame + 1 ∧ t.ppu.frameReady = true
      ∧ ∀ k < n, (dots k s).ppu.frame = s.ppu.frame ∧ (dots k s).ppu.frameReady = s.ppu.frameReady

-- The cartridge (file 21).

/-- An MMC1 write with bit 7 set resets the shift register and the PRG mode, whatever the address, and nothing else (21
R118). -/
def Obligations.Mmc1ResetWrite : Prop :=
  ∀ (s : State) (a : Addr) (v : Byte), s.cart.mapper = .mmc1 → 0x8000 ≤ a.toNat → v.getLsbD 7 = true →
    memWrite s a v = { s with cart := { s.cart with mmc1 := { s.cart.mmc1 with shift := 0x10, prgMode := .fixSecond } } }

/-- Five MMC1 writes with bit 7 clear, from an empty shift register, put their bits 0, the first one lowest, into the register
that bits 14 and 13 of the fifth address select, and leave the shift register empty; until then no register changes (21 R119 to
R124; that the marker makes the fifth write the last is the spec's decision D33). -/
def Obligations.Mmc1SerialWrites : Prop :=
  ∀ (s : State) (a1 a2 a3 a4 a5 : Addr) (v1 v2 v3 v4 v5 : Byte),
    s.cart.mapper = .mmc1 → s.cart.mmc1.shift = 0x10 →
    (∀ a ∈ [a1, a2, a3, a4, a5], 0x8000 ≤ a.toNat) → (∀ v ∈ [v1, v2, v3, v4, v5], v.getLsbD 7 = false) →
    let m := s.cart.mmc1
    let bit := fun v : Byte => num (v.getLsbD 0)
    let value := bit v1 + 2 * bit v2 + 4 * bit v3 + 8 * bit v4 + 16 * bit v5
    let four := memWrite (memWrite (memWrite (memWrite s a1 v1) a2 v2) a3 v3) a4 v4
    (∃ x, four = { s with cart := { s.cart with mmc1 := { m with shift := x } } })
      ∧ memWrite four a5 v5 = { s with cart := { s.cart with mmc1 :=
          if a5.toNat < 0xA000 then
            { m with
              mirroring := match value % 4 with
                | 0 => .singleLower
                | 1 => .singleUpper
                | 2 => .vertical
                | _ => .horizontal
              prgMode := match value / 4 % 4 with
                | 2 => .fixFirst
                | 3 => .fixSecond
                | _ => .switch32
              chrMode := if value / 16 = 1 then .two4 else .full8 }
          else if a5.toNat < 0xC000 then { m with chr0 := BitVec.ofNat 5 value }
          else if a5.toNat < 0xE000 then { m with chr1 := BitVec.ofNat 5 value }
          else { m with prgBank := BitVec.ofNat 4 value } } }

/-- Which byte every mapper shows at every cartridge address of the CPU and of the PPU, its mirroring, and its register writes but the MMC1's. NROM: PRG-ROM
from $8000 modulo its size, CHR as it stands, no register (21 R117). UxROM: a write to $8000 and up sets the PRG bank, shown at
$8000, the last bank at $C000, CHR as it stands (21 R129 to R131). CNROM: a write sets the CHR bank, PRG-ROM as NROM's (21 R132,
R133). MMC1: the PRG and CHR banks of its modes, and its own mirroring (21 R125, R127, R128); the others have the header's.
PRG-RAM is bank 0 of 8 KiB, for the MMC1 with CHR-RAM the bank of its first CHR register (21 R114, R126). $4020-$5FFF read 0,
and absent PRG-RAM does (21 R112, the spec's decision D37). That banks are taken
modulo their number is the spec's decision D36, whole-byte banks D47, the 256K base and RAM bank D35, more than two banks of
NROM and CNROM D56. -/
def Obligations.UxromAndCnromBanks : Prop :=
  ∀ (s : State) (a : Addr) (v : Byte),
    let c := s.cart
    let n := c.prgBanks16
    let m := c.mmc1
    let low := a.toNat < 0xC000
    let shows := fun bank : Nat => peek s a = c.prgRom.read (bank * 0x4000 + a.toNat % 0x4000)
    let base := if m.chr0.getLsbD 4 then 16 else 0
    let bank := m.prgBank.toNat
    let chr0 := m.chr0.toNat
    let ram := if c.mapper = .mmc1 ∧ c.chrIsRam = true then chr0 / 4 % 4 else 0
    (0x8000 ≤ a.toNat →
        (c.mapper = .nrom ∨ c.mapper = .cnrom → peek s a = c.prgRom.read ((a.toNat - 0x8000) % (0x4000 * n)))
          ∧ (c.mapper = .uxrom → shows (if low then c.uxromBank.toNat % n else n - 1))
          ∧ (c.mapper = .mmc1 → shows (
              (match m.prgMode with
                | .switch32 => base + 2 * (bank / 2) + (if low then 0 else 1)
                | .fixFirst => base + (if low then 0 else bank)
                | .fixSecond => base + (if low then bank else min n 16 - 1)) % n))
          ∧ (c.mapper = .nrom → memWrite s a v = s)
          ∧ (c.mapper = .uxrom → memWrite s a v = { s with cart := { c with uxromBank := v } })
          ∧ (c.mapper = .cnrom → memWrite s a v = { s with cart := { c with cnromBank := v } }))
      ∧ (a.toNat < 0x2000 →
        (c.mapper = .nrom ∨ c.mapper = .uxrom → ppuBusRead c s.ppu a = c.chr.read a.toNat)
          ∧ (c.mapper = .cnrom → ppuBusRead c s.ppu a =
              c.chr.read (c.cnromBank.toNat % c.chrBanks8 * 0x2000 + a.toNat))
          ∧ (c.mapper = .mmc1 → ppuBusRead c s.ppu a = c.chr.read (
              (match m.chrMode with
                | .full8 => 2 * (chr0 / 2) + a.toNat / 0x1000
                | .two4 => if a.toNat < 0x1000 then chr0 else m.chr1.toNat) % (2 * c.chrBanks8) * 0x1000
                + a.toNat % 0x1000)))
      ∧ (0x6000 ≤ a.toNat → a.toNat < 0x8000 → c.prgRamPresent = true →
          peek s a = c.prgRam.read (ram * 0x2000 + a.toNat % 0x2000))
      ∧ (0x6000 ≤ a.toNat → a.toNat < 0x8000 → c.prgRamPresent = false → peek s a = 0)
      ∧ (0x4020 ≤ a.toNat → a.toNat < 0x6000 → peek s a = 0)
      ∧ c.mirroring = (if c.mapper = .mmc1 then m.mirroring else c.headerMirroring)

/-- No mapped offset lies outside its array, whatever the bank registers hold (21 R116). -/
def Obligations.MappedOffsetsStayInside : Prop :=
  ∀ (c : Cart) (a : Addr), 1 ≤ c.prgBanks16 → 1 ≤ c.chrBanks8 →
    (0x8000 ≤ a.toNat → c.prgOffset a < 0x4000 * c.prgBanks16)
      ∧ (a.toNat < 0x2000 → c.chrOffset a.toNat < 0x2000 * c.chrBanks8) ∧ c.ramOffset a < 0x8000

-- Power-on, reset and the host (file 70).

/-- Power-on gives the CPU P = $24, S = $FD, A = X = Y = 0, PC from the reset vector and 7 idle cycles, with nothing pending and the
PPU at (-1, 0) of frame 0 (70 R380, R388); State.reset is power-on with the model's blank cartridge (log 2). -/
def Obligations.PowerOnState : Prop :=
  (∀ c : Cart,
    let s := powerOn c
    s.cpu.p = 0x24 ∧ s.cpu.s = 0xFD ∧ s.cpu.a = 0 ∧ s.cpu.x = 0 ∧ s.cpu.y = 0
      ∧ s.cpu.pc = w16 (c.cpuRead 0xFFFD) (c.cpuRead 0xFFFC) ∧ s.cpu.cyclesUntilNext = 7 ∧ s.cpu.cycleCount = 0
      ∧ s.cpu.nmiPending = false ∧ s.cpu.dmaRemaining = 0 ∧ s.ppu.scanline = -1 ∧ s.ppu.dot = 0 ∧ s.ppu.frame = 0
      ∧ s.ppu.frameReady = false ∧ s.cart = c ∧ s.port.polls = [])
    ∧ State.reset = powerOn Cart.blank

/-- A machine reset: the CPU reads its vector through the reset mapper, sets I, moves S down by 3 and idles 7 cycles, its other
registers, the tick count and the latent operand state staying; the PPU is at (-1, 0) of frame 0 with every register, the
background pipeline and the sprite-0 flags cleared and the slots transparent, its memories and the frame buffer staying; the
mapper is back at its power-on default; work RAM, the cartridge's memories and the controllers stay (70 R381 to R385; decisions
D8, D34, D40, D45 and D61). -/
def Obligations.MachineReset : Prop :=
  ∀ (s : State),
    let t := machineReset s
    let c := s.cart.reset
    (∃ p, FlagsAre s.cpu.p p [(.i, true)] ∧
      t.cpu = { s.cpu with
        pc := w16 (c.cpuRead 0xFFFD) (c.cpuRead 0xFFFC), p := p, s := s.cpu.s - 3, cyclesUntilNext := 7,
        nmiPending := false, irqPending := false, dmaRemaining := 0, dmaPage := 0, dmaBuffer := 0 })
      ∧ t.cart =
          { s.cart with
            uxromBank := 0
            cnromBank := 0
            mmc1 :=
              { shift := 0x10, prgMode := .fixSecond, chrMode := .full8, mirroring := s.cart.headerMirroring,
                prgBank := 0, chr0 := 0, chr1 := 0 } }
      ∧ t.ppu =
          { pal := s.ppu.pal, nt := s.ppu.nt, oam := s.ppu.oam, oam2 := s.ppu.oam2, oam2Count := s.ppu.oam2Count
            frameOut := s.ppu.frameOut
            scanline := -1, dot := 0, frame := 0, frameReady := false, v := 0, t := 0, x := 0, w := false
            ctrl := ⟨false, false, false, false, false⟩, mask := ⟨false, false, false, false, false, 0⟩
            status := ⟨false, false, false⟩, oamaddr := 0, readBuffer := 0
            bgPatLo := 0, bgPatHi := 0, bgAttrLo := 0, bgAttrHi := 0
            latPatLo := 0, latPatHi := 0, latAttr := 0, latTile := 0
            slots := Vector.replicate 8 ⟨0, 0, 0, 0xFF⟩
            sprite0InSecondary := false, sprite0InScanline := false, renderingSprite0 := false }
      ∧ t.wram = s.wram ∧ t.pads = s.pads ∧ t.port = s.port

namespace Sys2Proof.Claims

/-- `s` with one more answer to the host (log 12). -/
def answered (s : State) (r : HostReply) : State := { s with port := { s.port with replies := r :: s.port.replies } }

end Sys2Proof.Claims

/-- The host acts only between frames: within one, a step gives the same machine whatever the host has queued, which stays
queued (70 R396, R398), and no frame is opened. A group that finds frame_ready set ends the frame: it clears frame_ready and the
machine is between frames again; any other group ends nothing (70 R396; the field betweenFrames is log 1). At the top of a frame
its next poll is taken: the requests in their order, then each player's committed buttons become the delivered ones (70 R398);
none delivered, or no poll, they stay (log 11). A good image is the cartridge its header says, with its bytes (21 R111; the header
mirroring is the spec's decision D38). Its CHR-RAM and its PRG-RAM read 0 at every address: that they power on 0 is the spec's
decision D39 (10 R51, R52), and that an address no byte is listed for reads 0 is the model's choice (log 14, DESIGN CHOICE). Its
mapper registers are those a reset gives, by the spec's decision D34 (10 R55 to R57, 70 R383). A bad magic number, no PRG-ROM or a
trainer, a mapper beyond 3, and a file too short are the three errors (21 R111, D46; their order is log 13). A reset request is a
machine reset, answered as done (70 R385, R398). A swap to a good image is that cartridge and a machine reset (70 R398, D61); a
refused swap and a failed restore leave the machine as it was (60 R366, D46); the bytes a snapshot hands out restore the machine
it was taken from (70 R399). The model's further choices, all DESIGN CHOICE: the poll, the queue that stands in State and buttons
that stay (log 11), the answers kept in a list, done among them (log 12), the free format of the bytes (log 10), a restore that
keeps the queue (log 22), and whether a snapshot reports an error, a free value (log 24). -/
def Obligations.HostActsBetweenFrames : Prop :=
  (∀ (s t : State) (q : List HostPoll), s.port.betweenFrames = false → step s = .next t →
      t.port.polls = s.port.polls
        ∧ step { s with port := { s.port with polls := q } } = .next { t with port := { t.port with polls := q } })
    ∧ (∀ s : State,
        (s.port.betweenFrames = false → openFrame s = s) ∧ (s.ppu.frameReady = false → closeFrame s = s)
          ∧ (s.ppu.frameReady = true → closeFrame s =
              { s with ppu := { s.ppu with frameReady := false }, port := { s.port with betweenFrames := true } }))
    ∧ (∀ (s : State) (q : HostPoll) (rest : List HostPoll), s.port.betweenFrames = true → s.port.polls = q :: rest →
        let u := q.requests.foldl applyRequest { s with port := { s.port with polls := rest, betweenFrames := false } }
        let delivered := q.buttons.getD (u.pads.committed1, u.pads.committed2)
        openFrame s = { u with pads := { u.pads with
          committed1 := delivered.1, committed2 := delivered.2
          localButtons := q.localButtons.getD u.pads.localButtons } })
    ∧ (∀ s : State, s.port.betweenFrames = true → s.port.polls = [] →
        openFrame s = { s with port := { s.port with betweenFrames := false } })
    ∧ (∀ image : List Byte,
        (image.length < 16 → Cart.ofINes image = .error .io)
          ∧ (16 ≤ image.length → image.take 4 ≠ [0x4E, 0x45, 0x53, 0x1A] → Cart.ofINes image = .error .invalidInesHeader))
    ∧ (∀ (n m f6 f7 : Byte) (pad body : List Byte),
        let load := Cart.ofINes ([0x4E, 0x45, 0x53, 0x1A, n, m, f6, f7] ++ pad ++ body)
        let number := f6.toNat / 16 + 16 * (f7.toNat / 16)
        let prg := 0x4000 * n.toNat
        let chr := 0x2000 * m.toNat
        pad.length = 8 →
        if n = 0 ∨ f6.getLsbD 2 = true then load = .error .invalidInesHeader
        else if 4 ≤ number then load = .error (.unsupportedMapper number)
        else if body.length < prg + chr then load = .error .io
        else ∃ c, load = .ok c
          ∧ [Mapper.nrom, .mmc1, .uxrom, .cnrom][number]? = some c.mapper
          ∧ c.prgBanks16 = n.toNat ∧ (∀ i < prg, body[i]? = some (c.prgRom.read i))
          ∧ c.chrIsRam = decide (m = 0) ∧ c.chrBanks8 = (if m = 0 then 1 else m.toNat)
          ∧ (∀ i < chr, body[prg + i]? = some (c.chr.read i)) ∧ (m = 0 → ∀ i, c.chr.read i = 0)
          ∧ c.prgRamPresent = f6.getLsbD 1 ∧ (∀ i, c.prgRam.read i = 0)
          ∧ c.headerMirroring =
            (if f6.getLsbD 3 then .fourScreen else if f6.getLsbD 0 then .vertical else .horizontal)
          ∧ c.reset = c)
    ∧ (∀ s : State, applyRequest s .reset = answered (machineReset s) .done)
    ∧ (∀ (s : State) (image : List Byte), applyRequest s (.swap image) =
        match Cart.ofINes image with
        | .ok c => answered (machineReset { s with cart := c }) .done
        | .error e => answered s (.loadFailed e))
    ∧ (∀ (s : State) (bytes : List Byte), applyRequest s (.restore bytes) =
        match Config.snapshotFormat.decode bytes with
        | some x =>
          answered { cpu := x.cpu, ppu := x.ppu, cart := x.cart, wram := x.wram, pads := x.pads, port := s.port } .done
        | none => answered s .restoreFailed)
    ∧ (∀ s : State, ∃ r, applyRequest s .snapshot = answered s r
        ∧ (r = .snapshotFailed ∨ ∃ bytes, r = .snapshot bytes ∧
          ∀ t : State, (applyRequest t (.restore bytes)).snapshot = s.snapshot))
end

