-- ==== Sys2Proof/Laws/Bits.lean ====
section
/-! SUPPORT. Facts about byte order, bit fields and the flags of P. -/

namespace Sys2Proof

theorem getLsbD_w16 (h l : Byte) (i : Nat) :
    (w16 h l).getLsbD i = if i < 8 then l.getLsbD i else h.getLsbD (i - 8) := by
  unfold w16
  exact BitVec.getLsbD_append

@[simp] theorem lo_w16 (h l : Byte) : lo (w16 h l) = l := by
  apply BitVec.eq_of_getLsbD_eq
  intro i hi
  simp only [lo, BitVec.getLsbD_extractLsb', getLsbD_w16]
  simp [hi]

@[simp] theorem hi_w16 (h l : Byte) : hi (w16 h l) = h := by
  apply BitVec.eq_of_getLsbD_eq
  intro i hi
  simp only [Sys2Proof.hi, BitVec.getLsbD_extractLsb', getLsbD_w16]
  have : ¬ (8 + i < 8) := by omega
  simp [hi]

@[simp] theorem w16_hi_lo (w : Addr) : w16 (hi w) (lo w) = w := by
  apply BitVec.eq_of_getLsbD_eq
  intro i h
  simp only [getLsbD_w16, hi, lo, BitVec.getLsbD_extractLsb']
  split
  · simp_all
  · have : i - 8 < 8 := by omega
    have e : 8 + (i - 8) = i := by omega
    simp [this, e]

theorem toNat_w16 (h l : Byte) : (w16 h l).toNat = 256 * h.toNat + l.toNat := by
  have := l.isLt
  simp only [w16, BitVec.toNat_append]
  rw [← Nat.shiftLeft_add_eq_or_of_lt this, Nat.shiftLeft_eq]
  omega

end Sys2Proof

namespace Sys2Proof.Machine

/-- A flag read from a P byte in which one was written. -/
@[simp] theorem flagOf_withFlag (p : Byte) (f g : Flag) (b : Bool) :
    flagOf (withFlag p f b) g = if g = f then b else flagOf p g := by
  cases b <;> cases f <;> cases g <;> simp [flagOf, withFlag, Flag.mask, Flag.bit]

/-- The eight flags are all of P. -/
theorem p_ext {p q : Byte} (h : ∀ f, flagOf p f = flagOf q f) : p = q := by
  have hc := h .c; have hz := h .z; have hi := h .i; have hd := h .d
  have hb := h .b; have hu := h .u; have hv := h .v; have hn := h .n
  simp only [flagOf, Flag.bit] at hc hz hi hd hb hu hv hn
  apply BitVec.eq_of_getLsbD_eq
  intro i hlt
  match i with
  | 0 => exact hc
  | 1 => exact hz
  | 2 => exact hi
  | 3 => exact hd
  | 4 => exact hb
  | 5 => exact hu
  | 6 => exact hv
  | 7 => exact hn
  | n + 8 => omega

@[simp] theorem flagOf_withZN (p v : Byte) (g : Flag) :
    flagOf (withZN p v) g = if g = .n then bit7 v else if g = .z then v == 0 else flagOf p g := by
  simp [withZN]

@[simp] theorem flagOf_pulledP (p q : Byte) (g : Flag) :
    flagOf (pulledP p q) g = if g = .b ∨ g = .u then flagOf p g else flagOf q g := by
  cases g <;> simp [flagOf, pulledP, Flag.bit]

@[simp] theorem flagOf_pushedP (p : Byte) (g : Flag) :
    flagOf (pushedP p) g = if g = .b ∨ g = .u then true else flagOf p g := by
  cases g <;> simp [flagOf, pushedP, Flag.bit]

@[simp] theorem flagOf_pushedPNmi (p : Byte) (g : Flag) :
    flagOf (pushedPNmi p) g = if g = .b then false else if g = .u then true else flagOf p g := by
  cases g <;> simp [flagOf, pushedPNmi, Flag.bit]

end Sys2Proof.Machine
end

