-- ==== Sys2Proof/Laws/Memory.lean ====
section
/-! SUPPORT. Reading after writing, and the canonical form: every memory operation keeps it. -/

namespace Sys2Proof.Machine

-- Association lists.

theorem Assoc.get?_insert_same {α : Type} (a : Nat) (v : α) (m : List (Nat × α)) (h : Assoc.get? m a = none) :
    Assoc.get? (Assoc.insert a v m) a = some v := by
  induction m with
  | nil => simp [Assoc.insert, Assoc.get?]
  | cons c m ih =>
    obtain ⟨k, w⟩ := c
    simp only [Assoc.get?] at h
    have hk : k ≠ a := by intro e; simp [e] at h
    simp only [hk, if_false] at h
    simp only [Assoc.insert]
    split
    · simp [Assoc.get?]
    · simp [Assoc.get?, hk, ih h]

theorem Assoc.get?_insert_other {α : Type} (a b : Nat) (v : α) (m : List (Nat × α)) (h : b ≠ a) :
    Assoc.get? (Assoc.insert a v m) b = Assoc.get? m b := by
  induction m with
  | nil => simp [Assoc.insert, Assoc.get?, h.symm]
  | cons c m ih =>
    obtain ⟨k, w⟩ := c
    simp only [Assoc.insert]
    split
    · simp [Assoc.get?, h.symm]
    · simp [Assoc.get?, ih]

theorem Assoc.get?_erase_same {α : Type} (m : List (Nat × α)) (a : Nat) : Assoc.get? (Assoc.erase m a) a = none := by
  induction m with
  | nil => rfl
  | cons c m ih =>
    obtain ⟨k, w⟩ := c
    by_cases h : k = a
    · simpa [Assoc.erase, h] using ih
    · simpa [Assoc.erase, Assoc.get?, h] using ih

theorem Assoc.get?_erase_other {α : Type} (m : List (Nat × α)) (a b : Nat) (h : b ≠ a) :
    Assoc.get? (Assoc.erase m a) b = Assoc.get? m b := by
  induction m with
  | nil => rfl
  | cons c m ih =>
    obtain ⟨k, w⟩ := c
    by_cases hk : k = a
    · have : ¬ k = b := by omega
      simpa [Assoc.erase, Assoc.get?, hk, this, h.symm] using ih
    · simp only [Assoc.erase] at ih
      simp [Assoc.erase, Assoc.get?, hk, ih]

theorem Assoc.get?_put {α : Type} (m : List (Nat × α)) (a b : Nat) (v : α) :
    Assoc.get? (Assoc.put m a v) b = if b = a then some v else Assoc.get? m b := by
  split
  · next h => subst h; exact Assoc.get?_insert_same _ _ _ (Assoc.get?_erase_same _ _)
  · next h => rw [Assoc.put, Assoc.get?_insert_other _ _ _ _ h, Assoc.get?_erase_other _ _ _ h]

theorem Assoc.mem_erase {α : Type} {m : List (Nat × α)} {a : Nat} {c : Nat × α} (h : c ∈ Assoc.erase m a) :
    c ∈ m ∧ c.1 ≠ a := by
  simpa [Assoc.erase] using h

theorem Assoc.mem_insert {α : Type} {a : Nat} {v : α} {m : List (Nat × α)} {c : Nat × α}
    (h : c ∈ Assoc.insert a v m) : c = (a, v) ∨ c ∈ m := by
  induction m with
  | nil => simpa [Assoc.insert] using h
  | cons d m ih =>
    obtain ⟨k, w⟩ := d
    simp only [Assoc.insert] at h
    split at h
    · simpa using h
    · rcases List.mem_cons.1 h with h | h
      · simp [h]
      · rcases ih h with h | h <;> simp [h]

theorem Assoc.mem_put {α : Type} {m : List (Nat × α)} {a : Nat} {v : α} {c : Nat × α} (h : c ∈ Assoc.put m a v) :
    c = (a, v) ∨ c ∈ m := by
  rcases Assoc.mem_insert h with h | h
  · exact .inl h
  · exact .inr (Assoc.mem_erase h).1

theorem Assoc.sorted_erase {α : Type} {m : List (Nat × α)} (a : Nat) (h : Assoc.sorted m) :
    Assoc.sorted (Assoc.erase m a) := List.Pairwise.filter _ h

theorem Assoc.sorted_insert {α : Type} {m : List (Nat × α)} (a : Nat) (v : α) (h : Assoc.sorted m)
    (hne : ∀ c ∈ m, c.1 ≠ a) : Assoc.sorted (Assoc.insert a v m) := by
  induction m with
  | nil => simp [Assoc.insert, Assoc.sorted]
  | cons d m ih =>
    obtain ⟨k, w⟩ := d
    have h' := List.pairwise_cons.1 h
    have hk : k ≠ a := hne (k, w) (by simp)
    simp only [Assoc.insert]
    split
    · next hlt =>
      refine List.pairwise_cons.2 ⟨?_, h⟩
      intro c hc
      rcases List.mem_cons.1 hc with rfl | hc
      · exact hlt
      · exact Nat.lt_trans hlt (h'.1 c hc)
    · next hlt =>
      refine List.pairwise_cons.2 ⟨?_, ih h'.2 fun c hc => hne c (by simp [hc])⟩
      intro c hc
      rcases Assoc.mem_insert hc with rfl | hc
      · show k < a
        omega
      · exact h'.1 c hc

theorem Assoc.sorted_put {α : Type} {m : List (Nat × α)} (a : Nat) (v : α) (h : Assoc.sorted m) :
    Assoc.sorted (Assoc.put m a v) :=
  Assoc.sorted_insert _ _ (Assoc.sorted_erase _ h) fun _ hc => (Assoc.mem_erase hc).2

theorem Assoc.mem_of_get? {α : Type} {m : List (Nat × α)} {a : Nat} {v : α} (h : Assoc.get? m a = some v) :
    (a, v) ∈ m := by
  induction m with
  | nil => simp [Assoc.get?] at h
  | cons c m ih =>
    obtain ⟨k, w⟩ := c
    simp only [Assoc.get?] at h
    split at h
    · next hk => simp_all
    · exact List.mem_cons_of_mem _ (ih h)

-- Byte memories.

/-- A read after a write, at any address, in any memory. -/
@[simp] theorem Memory.read_write (m : Memory) (a b : Nat) (v : Byte) :
    (Memory.write m a v).read b = if b = a then v else Memory.read m b := by
  unfold Memory.read Memory.write
  by_cases hv : v = Memory.unlisted
  · by_cases hb : b = a
    · subst hb; simp [hv, Assoc.get?_erase_same]
    · simp [hv, hb, Assoc.get?_erase_other _ _ _ hb]
  · by_cases hb : b = a <;> simp [hv, hb, Assoc.get?_put]

theorem Memory.mem_write {m : Memory} {a : Nat} {v : Byte} {c : Host.Cell} (h : c ∈ Memory.write m a v) :
    (c = (a, v) ∧ v ≠ Memory.unlisted) ∨ c ∈ m := by
  unfold Memory.write at h
  split at h
  · exact .inr (Assoc.mem_erase h).1
  · next hv =>
    rcases Assoc.mem_put h with h | h
    · exact .inl ⟨h, hv⟩
    · exact .inr h

theorem Memory.wf_write {m : Memory} (a : Nat) (v : Byte) (h : Memory.wf m) : Memory.wf (Memory.write m a v) := by
  refine ⟨?_, ?_⟩
  · unfold Memory.write
    split
    · exact Assoc.sorted_erase _ h.1
    · exact Assoc.sorted_put _ _ h.1
  · intro c hc
    rcases Memory.mem_write hc with ⟨rfl, hv⟩ | hc
    · exact hv
    · exact h.2 c hc

theorem Memory.below_write {size : Nat} {m : Memory} {a : Nat} (v : Byte) (h : Memory.below size m) (ha : a < size) :
    Memory.below size (Memory.write m a v) := by
  intro c hc
  rcases Memory.mem_write hc with ⟨rfl, _⟩ | hc
  · exact ha
  · exact h c hc

theorem Memory.holds_write {size : Nat} {m : Memory} {a : Nat} (v : Byte) (h : Memory.holds size m) (ha : a < size) :
    Memory.holds size (Memory.write m a v) := ⟨Memory.wf_write a v h.1, Memory.below_write v h.2 ha⟩

theorem Memory.mem_ofBytes {base : Nat} {bytes : List Byte} {c : Host.Cell} (h : c ∈ Memory.ofBytes base bytes) :
    base ≤ c.1 ∧ c.1 < base + bytes.length ∧ c.2 ≠ Memory.unlisted := by
  induction bytes generalizing base with
  | nil => simp [Memory.ofBytes] at h
  | cons b bs ih =>
    simp only [Memory.ofBytes] at h
    simp only [List.length_cons]
    split at h
    · have := ih h
      exact ⟨by omega, by omega, this.2.2⟩
    · next hb =>
      rcases List.mem_cons.1 h with rfl | h
      · exact ⟨Nat.le_refl _, by simp, hb⟩
      · have := ih h
        exact ⟨by omega, by omega, this.2.2⟩

theorem Memory.holds_ofBytes {size : Nat} {bytes : List Byte} (h : bytes.length ≤ size) :
    Memory.holds size (Memory.ofBytes 0 bytes) := by
  refine ⟨⟨?_, fun c hc => (Memory.mem_ofBytes hc).2.2⟩, fun c hc => ?_⟩
  · have : ∀ base, Assoc.sorted (Memory.ofBytes base bytes) := by
      intro base
      clear h
      induction bytes generalizing base with
      | nil => exact List.Pairwise.nil
      | cons b bs ih =>
        simp only [Memory.ofBytes]
        split
        · exact ih _
        · refine List.pairwise_cons.2 ⟨fun c hc => ?_, ih _⟩
          have := (Memory.mem_ofBytes hc).1
          show base < c.1
          omega
    exact this 0
  · have := (Memory.mem_ofBytes hc).2.1
    omega

/-- What a memory made of bytes reads as: the bytes, and past them the unlisted value. -/
theorem Memory.read_ofBytes (base : Nat) (bytes : List Byte) (i : Nat) :
    (Memory.ofBytes base bytes).read i = if base ≤ i then bytes.getD (i - base) Memory.unlisted else Memory.unlisted := by
  induction bytes generalizing base with
  | nil => simp [Memory.ofBytes, Memory.read, Assoc.get?]
  | cons b bs ih =>
    have key : (Memory.ofBytes base (b :: bs)).read i = if i = base then b else (Memory.ofBytes (base + 1) bs).read i := by
      simp only [Memory.ofBytes]
      split
      · next h =>
        split
        · next e => rw [ih, if_neg (by omega), h]
        · rfl
      · simp only [Memory.read, Assoc.get?]
        by_cases e : i = base
        · simp [e]
        · simp [e, Ne.symm e]
    rw [key, ih]
    by_cases e : i = base
    · subst e; simp
    · rw [if_neg e]
      by_cases g : base ≤ i
      · rw [if_pos g, if_pos (by omega), show i - base = (i - (base + 1)) + 1 by omega, List.getD_cons_succ]
      · rw [if_neg g, if_neg (by omega)]

-- The frame buffer.

theorem FrameBuffer.written_write (f : FrameBuffer) (y x y' x' : Nat) (p : BitVec 32) :
    FrameBuffer.written (FrameBuffer.write f y x p) y' x' =
      if y' = y ∧ x' = x then some p else FrameBuffer.written f y' x' := by
  simp only [FrameBuffer.written, FrameBuffer.write, Assoc.get?_put]
  by_cases hy : y' = y
  · subst hy
    by_cases hx : x' = x
    · simp [Assoc.get?_put, hx]
    · cases h : Assoc.get? f y' <;> simp [Assoc.get?_put, hx, Assoc.get?]
  · simp [hy]

/-- Lines below 240, columns below 256. -/
theorem FrameBuffer.inv_write {f : FrameBuffer} {y x : Nat} (p : BitVec 32)
    (h : FrameBuffer.wf f ∧ ∀ l ∈ f, l.1 < 240 ∧ ∀ c ∈ l.2, c.1 < 256) (hy : y < 240) (hx : x < 256) :
    FrameBuffer.wf (FrameBuffer.write f y x p) ∧
      ∀ l ∈ FrameBuffer.write f y x p, l.1 < 240 ∧ ∀ c ∈ l.2, c.1 < 256 := by
  have line : Assoc.sorted ((Assoc.get? f y).getD []) ∧ ∀ c ∈ (Assoc.get? f y).getD [], c.1 < 256 := by
    cases e : Assoc.get? f y with
    | none => simp [Assoc.sorted]
    | some l =>
      have := Assoc.mem_of_get? e
      exact ⟨h.1.2 _ this, (h.2 _ this).2⟩
  refine ⟨⟨Assoc.sorted_put _ _ h.1.1, fun l hl => ?_⟩, fun l hl => ?_⟩
  · rcases Assoc.mem_put hl with rfl | hl
    · exact Assoc.sorted_put _ _ line.1
    · exact h.1.2 l hl
  · rcases Assoc.mem_put hl with rfl | hl
    · refine ⟨hy, fun c hc => ?_⟩
      rcases Assoc.mem_put hc with rfl | hc
      · exact hx
      · exact line.2 c hc
    · exact h.2 l hl

end Sys2Proof.Machine
end

