-- ==== Sys2Proof/Laws/Bus.lean ====
section
/-! SUPPORT. What one bus read and one bus write do, once for each range of addresses, and what they never change. -/

namespace Sys2Proof.Machine

-- The device at an address.

theorem deviceAt_wram {a : Addr} (h : a.toNat < 0x2000) : deviceAt a = some .wram := by
  simp [deviceAt, registrationOrder, Device.claims, h]

theorem deviceAt_ppu {a : Addr} (h : 0x2000 ≤ a.toNat) (h' : a.toNat < 0x4000) : deviceAt a = some .ppu := by
  have : ¬ a.toNat < 0x2000 := by omega
  simp [deviceAt, registrationOrder, List.find?, Device.claims, h, h', this]

theorem deviceAt_pads {a : Addr} (h : a.toNat = 0x4016 ∨ a.toNat = 0x4017) : deviceAt a = some .pads := by
  rcases h with h | h <;> simp [deviceAt, registrationOrder, List.find?, Device.claims, h]

theorem deviceAt_dma {a : Addr} (h : a.toNat = 0x4014) : deviceAt a = some .dmaPort := by
  simp [deviceAt, registrationOrder, List.find?, Device.claims, h]

theorem deviceAt_cart {a : Addr} (h : 0x4020 ≤ a.toNat) : deviceAt a = some .cart := by
  have h1 : ¬ a.toNat < 0x2000 := by omega
  have h2 : ¬ a.toNat < 0x4000 := by omega
  have h3 : ¬ a.toNat ≤ 0x4017 := by omega
  have h4 : ¬ a.toNat = 0x4014 := by omega
  simp [deviceAt, registrationOrder, List.find?, Device.claims, h, h1, h2, h3, h4]

theorem deviceAt_none {a : Addr} (h : 0x4000 ≤ a.toNat) (h' : a.toNat < 0x4020) (h1 : a.toNat ≠ 0x4014)
    (h2 : a.toNat ≠ 0x4016) (h3 : a.toNat ≠ 0x4017) : deviceAt a = none := by
  have g1 : ¬ a.toNat < 0x2000 := by omega
  have g2 : ¬ a.toNat < 0x4000 := by omega
  have g3 : (decide (0x4016 ≤ a.toNat) && decide (a.toNat ≤ 0x4017)) = false := by
    rw [← Bool.decide_and]
    exact decide_eq_false (by omega)
  have g4 : ¬ 0x4020 ≤ a.toNat := by omega
  simp [deviceAt, registrationOrder, List.find?, Device.claims, h1, g1, g2, g3, g4]

-- Reads.

theorem memRead_wram {a : Addr} (s : State) (h : a.toNat < 0x2000) :
    memRead s a = (s.wram.read (wramIndex a), s) := by
  simp [memRead, deviceAt_wram h]

theorem memRead_ppu {a : Addr} (s : State) (h : 0x2000 ≤ a.toNat) (h' : a.toNat < 0x4000) :
    memRead s a = ((Ppu.readRegister s.cart s.ppu (a.toNat % 8)).1,
      { s with ppu := (Ppu.readRegister s.cart s.ppu (a.toNat % 8)).2 }) := by
  simp [memRead, deviceAt_ppu h h']

theorem memRead_pads {a : Addr} (s : State) (h : a.toNat = 0x4016 ∨ a.toNat = 0x4017) :
    memRead s a = ((s.pads.read a).1, { s with pads := (s.pads.read a).2 }) := by
  simp [memRead, deviceAt_pads h]

theorem memRead_dma {a : Addr} (s : State) (h : a.toNat = 0x4014) : memRead s a = (0, s) := by
  simp [memRead, deviceAt_dma h]

theorem memRead_cart {a : Addr} (s : State) (h : 0x4020 ≤ a.toNat) : memRead s a = (s.cart.cpuRead a, s) := by
  simp [memRead, deviceAt_cart h]

theorem memRead_none {a : Addr} (s : State) (h : 0x4000 ≤ a.toNat) (h' : a.toNat < 0x4020) (h1 : a.toNat ≠ 0x4014)
    (h2 : a.toNat ≠ 0x4016) (h3 : a.toNat ≠ 0x4017) : memRead s a = (0, s) := by
  simp [memRead, deviceAt_none h h' h1 h2 h3]

/-- A read changes the PPU or the controllers, or nothing. -/
theorem memRead_state (s : State) (a : Addr) :
    (memRead s a).2 = { s with ppu := (memRead s a).2.ppu, pads := (memRead s a).2.pads } := by
  unfold memRead
  split <;> rfl

@[simp] theorem memRead_cpu (s : State) (a : Addr) : (memRead s a).2.cpu = s.cpu := by rw [memRead_state]

@[simp] theorem memRead_cart_eq (s : State) (a : Addr) : (memRead s a).2.cart = s.cart := by rw [memRead_state]

@[simp] theorem memRead_wram_eq (s : State) (a : Addr) : (memRead s a).2.wram = s.wram := by rw [memRead_state]

@[simp] theorem memRead_port (s : State) (a : Addr) : (memRead s a).2.port = s.port := by rw [memRead_state]

/-- A register read that is not of $2002 or $2007 changes nothing. -/
theorem readRegister_quiet (c : Cart) (p : Ppu) (r : Nat) (h2 : r ≠ 2) (h7 : r ≠ 7) :
    (Ppu.readRegister c p r).2 = p := by
  unfold Ppu.readRegister
  split <;> first | rfl | contradiction

/-- A read without a side effect changes nothing (20 R89). -/
theorem memRead_quiet {s : State} {a : Addr} (h : readHasSideEffect a = false) : (memRead s a).2 = s := by
  simp only [readHasSideEffect, Bool.or_eq_false_iff, Bool.and_eq_false_iff, decide_eq_false_iff_not,
    beq_eq_false_iff_ne] at h
  obtain ⟨⟨h1, h2⟩, h3⟩ := h
  have e16 : a.toNat ≠ 0x4016 := fun e => h2 (by apply BitVec.eq_of_toNat_eq; simpa using e)
  have e17 : a.toNat ≠ 0x4017 := fun e => h3 (by apply BitVec.eq_of_toNat_eq; simpa using e)
  by_cases c1 : a.toNat < 0x2000
  · rw [memRead_wram s c1]
  by_cases c2 : a.toNat < 0x4000
  · rw [memRead_ppu s (by omega) c2]
    have : a.toNat % 8 ≠ 2 ∧ a.toNat % 8 ≠ 7 := by omega
    simp [readRegister_quiet _ _ _ this.1 this.2]
  by_cases c3 : 0x4020 ≤ a.toNat
  · rw [memRead_cart s c3]
  by_cases c4 : a.toNat = 0x4014
  · rw [memRead_dma s c4]
  rw [memRead_none s (by omega) (by omega) c4 e16 e17]

/-- A read looks at the devices, not at the CPU or the host's side. -/
theorem memRead_congr {s t : State} (a : Addr) (h1 : s.ppu = t.ppu) (h2 : s.cart = t.cart) (h3 : s.wram = t.wram)
    (h4 : s.pads = t.pads) : (memRead s a).1 = (memRead t a).1 := by
  unfold memRead
  split <;> simp_all

theorem peek_congr {s t : State} (a : Addr) (h1 : s.ppu = t.ppu) (h2 : s.cart = t.cart) (h3 : s.wram = t.wram)
    (h4 : s.pads = t.pads) : peek s a = peek t a := memRead_congr a h1 h2 h3 h4

-- Writes.

theorem memWrite_wram {a : Addr} (s : State) (v : Byte) (h : a.toNat < 0x2000) :
    memWrite s a v = { s with wram := s.wram.write (wramIndex a) v } := by
  simp [memWrite, deviceAt_wram h]

theorem memWrite_ppu {a : Addr} (s : State) (v : Byte) (h : 0x2000 ≤ a.toNat) (h' : a.toNat < 0x4000) :
    memWrite s a v = { s with cart := (Ppu.writeRegister s.cart s.ppu (a.toNat % 8) v).1,
                              ppu := (Ppu.writeRegister s.cart s.ppu (a.toNat % 8) v).2 } := by
  simp [memWrite, deviceAt_ppu h h']

theorem memWrite_pads {a : Addr} (s : State) (v : Byte) (h : a.toNat = 0x4016 ∨ a.toNat = 0x4017) :
    memWrite s a v = { s with pads := s.pads.write a v } := by
  simp [memWrite, deviceAt_pads h]

theorem memWrite_dma {a : Addr} (s : State) (v : Byte) (h : a.toNat = 0x4014) :
    memWrite s a v = { s with cpu := s.cpu.startDma v } := by
  simp [memWrite, deviceAt_dma h]

theorem memWrite_cart {a : Addr} (s : State) (v : Byte) (h : 0x4020 ≤ a.toNat) :
    memWrite s a v = { s with cart := s.cart.cpuWrite a v } := by
  simp [memWrite, deviceAt_cart h]

theorem memWrite_none {a : Addr} (s : State) (v : Byte) (h : 0x4000 ≤ a.toNat) (h' : a.toNat < 0x4020)
    (h1 : a.toNat ≠ 0x4014) (h2 : a.toNat ≠ 0x4016) (h3 : a.toNat ≠ 0x4017) : memWrite s a v = s := by
  simp [memWrite, deviceAt_none h h' h1 h2 h3]

/-- What a write does to the CPU: nothing, but for the DMA port. -/
theorem memWrite_cpu (s : State) (a : Addr) (v : Byte) :
    (memWrite s a v).cpu = if a.toNat = 0x4014 then s.cpu.startDma v else s.cpu := by
  by_cases h : a.toNat = 0x4014
  · simp [memWrite_dma s v h, h]
  · have : deviceAt a ≠ some .dmaPort := by
      intro e
      have := List.find?_some e
      simp [Device.claims] at this
      exact h this
    unfold memWrite
    split <;> simp_all

@[simp] theorem memWrite_port (s : State) (a : Addr) (v : Byte) : (memWrite s a v).port = s.port := by
  unfold memWrite
  split <;> rfl

@[simp] theorem startDma_a (c : Cpu) (v : Byte) : (c.startDma v).a = c.a := rfl
@[simp] theorem startDma_x (c : Cpu) (v : Byte) : (c.startDma v).x = c.x := rfl
@[simp] theorem startDma_y (c : Cpu) (v : Byte) : (c.startDma v).y = c.y := rfl
@[simp] theorem startDma_s (c : Cpu) (v : Byte) : (c.startDma v).s = c.s := rfl
@[simp] theorem startDma_p (c : Cpu) (v : Byte) : (c.startDma v).p = c.p := rfl
@[simp] theorem startDma_pc (c : Cpu) (v : Byte) : (c.startDma v).pc = c.pc := rfl

@[simp] theorem memWrite_a (s : State) (a : Addr) (v : Byte) : (memWrite s a v).cpu.a = s.cpu.a := by
  rw [memWrite_cpu]; split <;> rfl
@[simp] theorem memWrite_x (s : State) (a : Addr) (v : Byte) : (memWrite s a v).cpu.x = s.cpu.x := by
  rw [memWrite_cpu]; split <;> rfl
@[simp] theorem memWrite_y (s : State) (a : Addr) (v : Byte) : (memWrite s a v).cpu.y = s.cpu.y := by
  rw [memWrite_cpu]; split <;> rfl
@[simp] theorem memWrite_s (s : State) (a : Addr) (v : Byte) : (memWrite s a v).cpu.s = s.cpu.s := by
  rw [memWrite_cpu]; split <;> rfl
@[simp] theorem memWrite_p (s : State) (a : Addr) (v : Byte) : (memWrite s a v).cpu.p = s.cpu.p := by
  rw [memWrite_cpu]; split <;> rfl
@[simp] theorem memWrite_pc (s : State) (a : Addr) (v : Byte) : (memWrite s a v).cpu.pc = s.cpu.pc := by
  rw [memWrite_cpu]; split <;> rfl

end Sys2Proof.Machine
end

