-- ==== Sys2Proof/Laws/Cart.lean ====
section
/-! SUPPORT. The cartridge and the PPU bus: every offset lies inside its array (21 R116), and every write keeps the
cartridge's invariant and leaves its ROM and header alone. -/

namespace Sys2Proof.Machine

theorem ramOffset_lt (c : Cart) (a : Addr) : c.ramOffset a < Config.prgRamSize := by
  unfold Cart.ramOffset Config.prgRamSize
  omega

theorem bank_lt {b n k off : Nat} (hn : 1 ≤ n) (ho : off < k) : b % n * k + off < k * n := by
  have h1 : b % n + 1 ≤ n := Nat.mod_lt _ hn
  have h2 : (b % n + 1) * k ≤ n * k := Nat.mul_le_mul_right k h1
  rw [Nat.mul_comm k n]
  calc b % n * k + off < b % n * k + k := by omega
    _ = (b % n + 1) * k := by rw [Nat.add_mul, Nat.one_mul]
    _ ≤ n * k := h2

theorem prgOffset_lt {c : Cart} (a : Addr) (h : 1 ≤ c.prgBanks16) :
    c.prgOffset a < Config.prgBankSize * c.prgBanks16 := by
  have hpos : 0 < Config.prgBankSize * c.prgBanks16 := Nat.mul_pos (by decide) h
  unfold Cart.prgOffset
  split
  · exact Nat.mod_lt _ hpos
  · exact Nat.mod_lt _ hpos
  · exact bank_lt h (Nat.mod_lt _ (by decide))
  · simp only
    split
    · exact bank_lt h (Nat.mod_lt _ (by decide))
    · have e : c.prgBanks16 - 1 = (c.prgBanks16 - 1) % c.prgBanks16 := (Nat.mod_eq_of_lt (by omega)).symm
      rw [e]
      exact bank_lt h (Nat.mod_lt _ (by decide))

theorem chrOffset_lt {c : Cart} {a : Nat} (h : 1 ≤ c.chrBanks8) (ha : a < 0x2000) :
    c.chrOffset a < Config.chrBankSize * c.chrBanks8 := by
  have h8 : Config.chrBankSize = 0x2000 := rfl
  have hge : 0x2000 * 1 ≤ 0x2000 * c.chrBanks8 := Nat.mul_le_mul_left _ h
  unfold Cart.chrOffset
  rw [h8]
  split
  · omega
  · omega
  · have := bank_lt (b := c.mmc1ChrBank a) (n := 2 * c.chrBanks8) (k := 0x1000) (off := a % 0x1000) (by omega)
      (Nat.mod_lt _ (by decide))
    omega
  · exact bank_lt h ha

theorem ntIndex_lt (m : Mirroring) (a : Nat) : ntIndex m a < Config.ntSize := by
  have : ∀ n, nametableOf m n < 4 := by
    intro n
    unfold nametableOf
    cases m <;> simp only <;> omega
  unfold ntIndex Config.ntSize
  have h := this (if a < 0x3000 then a else a - 0x1000)
  simp only
  omega

theorem palIndex_lt (a : Nat) : palIndex a < Config.palSize := by
  unfold palIndex Config.palSize
  simp only
  split <;> omega

/-- No palette index has an alias left (10 R32). -/
theorem palIndex_canonical (a : Nat) : ¬(16 ≤ palIndex a ∧ palIndex a % 4 = 0) := by
  unfold palIndex
  simp only
  split <;> omega

theorem ppuAddr_lt (a : Addr) : ppuAddr a < 0x4000 := Nat.mod_lt _ (by decide)

-- Writes.

theorem cpuWrite_inv {c : Cart} (a : Addr) (v : Byte) (h : c.Inv) : (c.cpuWrite a v).Inv := by
  unfold Cart.cpuWrite
  split
  · exact h
  · split
    · split
      · exact ⟨h.1, h.2.1, h.2.2.1, h.2.2.2.1, h.2.2.2.2.1, Memory.holds_write v h.2.2.2.2.2 (ramOffset_lt c a)⟩
      · exact h
    · unfold Cart.mapperWrite
      split <;> exact h

theorem ppuWrite_inv {c : Cart} {a : Nat} (v : Byte) (h : c.Inv) (ha : a < 0x2000) : (c.ppuWrite a v).Inv := by
  unfold Cart.ppuWrite
  split
  · exact ⟨h.1, h.2.1, h.2.2.1, h.2.2.2.1, Memory.holds_write v h.2.2.2.2.1 (chrOffset_lt h.2.1 ha), h.2.2.2.2.2⟩
  · exact h

theorem cartReset_inv {c : Cart} (h : c.Inv) : c.reset.Inv := h

/-- What no access changes in a cartridge: the launch input (10 R50, R51, R54; 21 R113). -/
structure Cart.SameRom (c d : Cart) : Prop where
  mapper : d.mapper = c.mapper
  prgRom : d.prgRom = c.prgRom
  prgBanks16 : d.prgBanks16 = c.prgBanks16
  chrBanks8 : d.chrBanks8 = c.chrBanks8
  chrIsRam : d.chrIsRam = c.chrIsRam
  chr : c.chrIsRam = false → d.chr = c.chr
  prgRamPresent : d.prgRamPresent = c.prgRamPresent
  headerMirroring : d.headerMirroring = c.headerMirroring

theorem Cart.SameRom.refl (c : Cart) : Cart.SameRom c c := ⟨rfl, rfl, rfl, rfl, rfl, fun _ => rfl, rfl, rfl⟩

theorem Cart.SameRom.trans {c d e : Cart} (h : Cart.SameRom c d) (g : Cart.SameRom d e) : Cart.SameRom c e :=
  ⟨g.1.trans h.1, g.2.trans h.2, g.3.trans h.3, g.4.trans h.4, g.5.trans h.5,
    fun r => (g.6 (h.5.trans r)).trans (h.6 r), g.7.trans h.7, g.8.trans h.8⟩

theorem cpuWrite_sameRom (c : Cart) (a : Addr) (v : Byte) : Cart.SameRom c (c.cpuWrite a v) := by
  unfold Cart.cpuWrite Cart.mapperWrite
  split
  · exact .refl c
  · split
    · split <;> exact ⟨rfl, rfl, rfl, rfl, rfl, fun _ => rfl, rfl, rfl⟩
    · split <;> exact ⟨rfl, rfl, rfl, rfl, rfl, fun _ => rfl, rfl, rfl⟩

theorem ppuWrite_sameRom (c : Cart) (a : Nat) (v : Byte) : Cart.SameRom c (c.ppuWrite a v) := by
  unfold Cart.ppuWrite
  split
  · next h => exact ⟨rfl, rfl, rfl, rfl, rfl, fun e => by simp [h] at e, rfl, rfl⟩
  · exact .refl c

/-- A PPU bus write changes one memory: CHR, a nametable or the palette. -/
theorem ppuBusWrite_eq (c : Cart) (p : Ppu) (a : Addr) (d : Byte) :
    ppuBusWrite c p a d =
      (if ppuAddr a < 0x2000 then c.ppuWrite (ppuAddr a) d else c,
       { p with
         nt := if 0x2000 ≤ ppuAddr a ∧ ppuAddr a < 0x3F00 then p.nt.write (ntIndex c.mirroring (ppuAddr a)) d else p.nt
         pal := if 0x3F00 ≤ ppuAddr a then p.pal.write (palIndex (ppuAddr a)) d else p.pal }) := by
  unfold ppuBusWrite
  simp only
  by_cases h1 : ppuAddr a < 0x2000
  · have h2 : ¬ 0x2000 ≤ ppuAddr a := by omega
    have h3 : ¬ 0x3F00 ≤ ppuAddr a := by omega
    simp [h1, h2, h3]
  · by_cases h2 : ppuAddr a < 0x3F00
    · have h3 : ¬ 0x3F00 ≤ ppuAddr a := by omega
      have h4 : 0x2000 ≤ ppuAddr a := by omega
      simp [h1, h2, h3, h4]
    · have h3 : 0x3F00 ≤ ppuAddr a := by omega
      simp [h1, h2, h3]

-- A cartridge from an image.

theorem ofBody_inv (mapper : Mapper) (n m : Nat) (f : Byte) (body : List Byte) (hn : 1 ≤ n) :
    (Cart.ofBody mapper n m f body).Inv := by
  unfold Cart.ofBody
  refine ⟨hn, ?_, ?_, Memory.holds_ofBytes (List.length_take_le _ _), ?_, ?_⟩
  · show 1 ≤ if m = 0 then 1 else m
    split <;> omega
  · show (m == 0) = true → (if m = 0 then 1 else m) = 1
    intro h
    simp only [beq_iff_eq] at h
    simp [h]
  · show Memory.holds (Config.chrBankSize * if m = 0 then 1 else m) _
    apply Memory.holds_ofBytes
    refine Nat.le_trans (List.length_take_le _ _) (Nat.mul_le_mul_left _ ?_)
    split <;> omega
  · exact ⟨⟨List.Pairwise.nil, by simp⟩, by simp⟩

theorem ofINes_inv {image : List Byte} {c : Cart} (h : Cart.ofINes image = .ok c) : c.Inv := by
  unfold Cart.ofINes at h
  split at h
  · next n m f6 f7 _ _ _ _ _ _ _ _ body =>
    split at h
    · simp at h
    · next hn =>
      split at h
      · simp at h
      · split at h
        · simp at h
        · simp only [Except.ok.injEq] at h
          subst h
          apply ofBody_inv
          have : n ≠ 0 := fun e => hn (by simp [e])
          have : n.toNat ≠ 0 := fun e => this (by apply BitVec.eq_of_toNat_eq; simpa using e)
          omega
  · simp at h

end Sys2Proof.Machine
end

