-- ==== Sys2Proof/Laws/Decode.lean ====
section
/-! SUPPORT. What the decoder's map and the table have in common, opcode by opcode. -/

namespace Sys2Proof

theorem forall_byte {P : Byte → Prop} (h : ∀ n, n < 256 → P (BitVec.ofNat 8 n)) (b : Byte) : P b := by
  have := h b.toNat b.isLt
  rwa [BitVec.ofNat_toNat, BitVec.setWidth_eq] at this

/-- The instruction an opcode decodes to has that opcode and the table's mode. -/
theorem decodeOp_opcode (b c : Byte) : ∀ op, (decodeOp op b c).opcode = op ∧
    (decodeOp op b c).operand.mode = (opInfo op).mode := by
  apply forall_byte
  intro n h
  interval_cases n <;> exact ⟨rfl, rfl⟩

/-- The table's length is one opcode byte and its mode's operand bytes (30 R141, R146). -/
theorem opInfo_bytes : ∀ op, (opInfo op).bytes = 1 + (opInfo op).mode.operandBytes := by
  apply forall_byte
  intro n h
  interval_cases n <;> rfl

/-- The operand bytes of a decoded instruction, by the number the mode has. -/
theorem decodeOp_bytes (b c : Byte) : ∀ op, (decodeOp op b c).operand.bytes =
    match (opInfo op).mode.operandBytes with
    | 0 => []
    | 1 => [b]
    | _ => [lo (w16 c b), hi (w16 c b)] := by
  apply forall_byte
  intro n h
  interval_cases n <;> rfl

/-- No mode has more than two operand bytes. -/
theorem operandBytes_le (m : Mode) : m.operandBytes ≤ 2 := by
  cases m <;> decide

/-- A byte that the mode does not have is not looked at. -/
theorem decodeOp_used (b c : Byte) : ∀ op, decodeOp op b c =
    match (opInfo op).mode.operandBytes with
    | 0 => decodeOp op 0 0
    | 1 => decodeOp op b 0
    | _ => decodeOp op b c := by
  apply forall_byte
  intro n h
  interval_cases n <;> rfl

end Sys2Proof
end

