-- ==== Sys2Proof/Laws/Ppu.lean ====
section
/-! SUPPORT. The PPU: what a register access keeps, and what the actions of a dot can and cannot change. -/

namespace Sys2Proof.Machine

-- Register accesses.

theorem readRegister_inv {c : Cart} {p : Ppu} (r : Nat) (h : p.Inv) : (Ppu.readRegister c p r).2.Inv := by
  unfold Ppu.readRegister
  split
  · exact h
  · exact h
  · simp only [Ppu.readData]
    split <;> exact h
  · exact h

theorem ppuBusWrite_inv {c : Cart} {p : Ppu} (a : Addr) (d : Byte) (hc : c.Inv) (hp : p.Inv) :
    (ppuBusWrite c p a d).1.Inv ∧ (ppuBusWrite c p a d).2.Inv := by
  obtain ⟨⟨hpal, hal⟩, hnt, hrest⟩ := hp
  rw [ppuBusWrite_eq]
  refine ⟨?_, ⟨?_, ?_⟩, ?_, hrest⟩
  · simp only
    split
    · next h => exact ppuWrite_inv d hc h
    · exact hc
  · simp only
    split
    · exact Memory.holds_write d hpal (palIndex_lt _)
    · exact hpal
  · simp only
    split
    · intro e he
      rcases Memory.mem_write he with ⟨rfl, -⟩ | he
      · exact palIndex_canonical _
      · exact hal e he
    · exact hal
  · simp only
    split
    · exact Memory.holds_write d hnt (ntIndex_lt _ _)
    · exact hnt

theorem writeRegister_inv {c : Cart} {p : Ppu} (r : Nat) (d : Byte) (hc : c.Inv) (hp : p.Inv) :
    (Ppu.writeRegister c p r d).1.Inv ∧ (Ppu.writeRegister c p r d).2.Inv := by
  unfold Ppu.writeRegister
  split
  · exact ⟨hc, hp⟩
  · exact ⟨hc, hp⟩
  · exact ⟨hc, hp⟩
  · exact ⟨hc, hp.1, hp.2.1, Memory.holds_write d hp.2.2.1 p.oamaddr.isLt, hp.2.2.2⟩
  · unfold Ppu.writeScroll
    split <;> exact ⟨hc, hp⟩
  · unfold Ppu.writeAddr
    split <;> exact ⟨hc, hp⟩
  · exact ppuBusWrite_inv _ d hc hp
  · exact ⟨hc, hp⟩

theorem writeRegister_sameRom (c : Cart) (p : Ppu) (r : Nat) (d : Byte) :
    Cart.SameRom c (Ppu.writeRegister c p r d).1 := by
  unfold Ppu.writeRegister
  split <;> try exact .refl c
  simp only [Ppu.writeData, ppuBusWrite_eq]
  split
  · exact ppuWrite_sameRom c _ d
  · exact .refl c

-- The dot.

/-- The PPU state that the actions of a dot never change. -/
structure Ppu.Kept (p q : Ppu) : Prop where
  pal : q.pal = p.pal
  nt : q.nt = p.nt
  oam : q.oam = p.oam
  scanline : q.scanline = p.scanline
  dot : q.dot = p.dot
  frame : q.frame = p.frame
  frameReady : q.frameReady = p.frameReady
  t : q.t = p.t
  x : q.x = p.x
  w : q.w = p.w
  ctrl : q.ctrl = p.ctrl
  mask : q.mask = p.mask
  readBuffer : q.readBuffer = p.readBuffer

theorem Ppu.Kept.refl (p : Ppu) : Ppu.Kept p p := ⟨rfl, rfl, rfl, rfl, rfl, rfl, rfl, rfl, rfl, rfl, rfl, rfl, rfl⟩

theorem Ppu.Kept.trans {p q r : Ppu} (h : Ppu.Kept p q) (g : Ppu.Kept q r) : Ppu.Kept p r :=
  ⟨g.1.trans h.1, g.2.trans h.2, g.3.trans h.3, g.4.trans h.4, g.5.trans h.5, g.6.trans h.6, g.7.trans h.7,
    g.8.trans h.8, g.9.trans h.9, g.10.trans h.10, g.11.trans h.11, g.12.trans h.12, g.13.trans h.13⟩

/-- A step that keeps that state and the invariant. -/
def Ppu.Tame (p q : Ppu) : Prop := Ppu.Kept p q ∧ (p.Inv → q.Inv)

theorem Ppu.Tame.refl (p : Ppu) : Ppu.Tame p p := ⟨.refl p, id⟩

theorem Ppu.Tame.trans {p q r : Ppu} (h : Ppu.Tame p q) (g : Ppu.Tame q r) : Ppu.Tame p r :=
  ⟨h.1.trans g.1, fun i => g.2 (h.2 i)⟩

/-- A step that writes none of the invariant's fields. -/
theorem Ppu.Tame.ofKept {p q : Ppu} (h : Ppu.Kept p q) (hn : q.oam2Count = p.oam2Count)
    (hf : q.frameOut = p.frameOut) : Ppu.Tame p q := by
  refine ⟨h, fun i => ?_⟩
  unfold Ppu.Inv
  rw [h.pal, h.nt, h.oam, h.scanline, h.dot, hn, hf]
  exact i

theorem Ppu.tame_ite {c : Prop} [Decidable c] {p q r : Ppu} (h : Ppu.Tame p q) (g : Ppu.Tame p r) :
    Ppu.Tame p (if c then q else r) := by
  split <;> assumption

theorem clearStatus_tame (p : Ppu) : Ppu.Tame p p.clearStatus := .ofKept (by constructor <;> rfl) rfl rfl

theorem clearSecondaryOam_tame (p : Ppu) : Ppu.Tame p p.clearSecondaryOam :=
  ⟨by constructor <;> rfl, fun i => ⟨i.1, i.2.1, i.2.2.1, Nat.zero_le 8, i.2.2.2.2⟩⟩

theorem shiftBackground_tame (p : Ppu) : Ppu.Tame p p.shiftBackground := .ofKept (by constructor <;> rfl) rfl rfl

theorem fetchStep_tame (c : Cart) (k : Nat) (r : Bool) (p : Ppu) : Ppu.Tame p (p.fetchStep c k r) := by
  unfold Ppu.fetchStep
  split
  · exact .ofKept (by constructor <;> rfl) rfl rfl
  · exact .ofKept (by constructor <;> rfl) rfl rfl
  · exact .ofKept (by constructor <;> rfl) rfl rfl
  · exact .ofKept (by constructor <;> rfl) rfl rfl
  · split
    · exact .ofKept (by constructor <;> rfl) rfl rfl
    · exact .refl p
  · exact .refl p

theorem backgroundDot_tame (c : Cart) (d : Nat) (r : Bool) (p : Ppu) : Ppu.Tame p (p.backgroundDot c d r) :=
  Ppu.tame_ite ((shiftBackground_tame p).trans (fetchStep_tame c _ r _)) (.refl p)

theorem verticalDot_tame (d : Nat) (r : Bool) (p : Ppu) : Ppu.Tame p (p.verticalDot d r) :=
  Ppu.tame_ite (.ofKept (by constructor <;> rfl) rfl rfl) (.refl p)

theorem copyHorizontal_tame (p : Ppu) : Ppu.Tame p p.copyHorizontal := .ofKept (by constructor <;> rfl) rfl rfl

theorem spriteFetch_tame (c : Cart) (l : Int) (p : Ppu) : Ppu.Tame p (p.spriteFetch c l) := .ofKept (by constructor <;> rfl) rfl rfl

theorem dot257_tame (c : Cart) (l : Int) (d : Nat) (r : Bool) (p : Ppu) : Ppu.Tame p (p.dot257 c l d r) :=
  Ppu.tame_ite ((Ppu.tame_ite (copyHorizontal_tame p) (.refl p)).trans (spriteFetch_tame c l _)) (.refl p)

theorem copyDot_tame (l : Int) (d : Nat) (r : Bool) (p : Ppu) : Ppu.Tame p (p.copyDot l d r) :=
  Ppu.tame_ite (.ofKept (by constructor <;> rfl) rfl rfl) (.refl p)

theorem oamAddrDot_tame (d : Nat) (r : Bool) (p : Ppu) : Ppu.Tame p (p.oamAddrDot d r) :=
  Ppu.tame_ite (.ofKept (by constructor <;> rfl) rfl rfl) (.refl p)

theorem scanOam_tame (l : Int) (records : List Nat) (n : Nat) (p : Ppu) (hn : n ≤ 8) :
    Ppu.Tame p (Ppu.scanOam l records n p) := by
  induction records generalizing n p with
  | nil => exact ⟨by constructor <;> rfl, fun i => ⟨i.1, i.2.1, i.2.2.1, hn, i.2.2.2.2⟩⟩
  | cons r rest ih =>
    unfold Ppu.scanOam
    split
    · split
      · refine Ppu.Tame.trans ?_ (ih (n + 1) _ (by omega))
        exact .ofKept (by constructor <;> rfl) rfl rfl
      · exact ⟨by constructor <;> rfl, fun i => ⟨i.1, i.2.1, i.2.2.1, hn, i.2.2.2.2⟩⟩
    · exact ih n p hn

theorem evaluateSprites_tame (l : Int) (p : Ppu) : Ppu.Tame p (p.evaluateSprites l) :=
  scanOam_tame l _ 0 p (Nat.zero_le 8)

theorem renderPixel_tame (c : Cart) (x : Nat) (l : Int) (p : Ppu) (hx : x < 256) (hl : 0 ≤ l) (hl' : l ≤ 239) :
    Ppu.Tame p (p.renderPixel c x l) := by
  refine ⟨by constructor <;> rfl, fun i => ⟨i.1, i.2.1, i.2.2.1, i.2.2.2.1, i.2.2.2.2.1, i.2.2.2.2.2.1, ?_⟩⟩
  exact FrameBuffer.inv_write _ i.2.2.2.2.2.2 (by omega) hx

theorem updateSpriteCounters_tame (p : Ppu) : Ppu.Tame p p.updateSpriteCounters := .ofKept (by constructor <;> rfl) rfl rfl

theorem pixelDot_tame (c : Cart) (l : Int) (d : Nat) (p : Ppu) (hl : l ≤ 239) : Ppu.Tame p (p.pixelDot c l d) := by
  unfold Ppu.pixelDot
  split
  · next h =>
    exact (renderPixel_tame c (d - 1) l p (by omega) h.1 hl).trans (updateSpriteCounters_tame _)
  · exact .refl p

theorem renderingLineDot_tame (c : Cart) (l : Int) (d : Nat) (r : Bool) (p : Ppu) (hl : l ≤ 239) :
    Ppu.Tame p (p.renderingLineDot c l d r) := by
  unfold Ppu.renderingLineDot
  simp only
  refine .trans ?_ (pixelDot_tame c l d _ hl)
  refine .trans ?_ (Ppu.tame_ite (evaluateSprites_tame l _) (.refl _))
  refine .trans ?_ (oamAddrDot_tame d r _)
  refine .trans ?_ (copyDot_tame l d r _)
  refine .trans ?_ (dot257_tame c l d r _)
  refine .trans ?_ (verticalDot_tame d r _)
  refine .trans ?_ (backgroundDot_tame c d r _)
  exact Ppu.tame_ite (clearSecondaryOam_tame p) (.refl p)

theorem setVblank_tame (p : Ppu) : Ppu.Tame p { p with status := { p.status with vblank := true } } :=
  .ofKept (by constructor <;> rfl) rfl rfl

/-- The actions of a dot keep the memories the CPU reaches, the position, the scroll copies t, x and w, PPUCTRL, PPUMASK
and the read buffer; and they keep the invariant. -/
theorem dotActions_tame (c : Cart) (p : Ppu) : Ppu.Tame p (p.dotActions c) := by
  unfold Ppu.dotActions
  simp only
  have h1 : Ppu.Tame p (if p.scanline = -1 ∧ p.dot = 1 then p.clearStatus else p) :=
    Ppu.tame_ite (clearStatus_tame p) (.refl p)
  have h2 : ∀ q, Ppu.Tame q (if -1 ≤ p.scanline ∧ p.scanline ≤ 239 then
      q.renderingLineDot c p.scanline p.dot p.rendering else q) := by
    intro q
    split
    · next h => exact renderingLineDot_tame c _ _ _ _ h.2
    · exact .refl _
  have h3 : ∀ q : Ppu, Ppu.Tame q (if p.scanline = 241 ∧ p.dot = 1 then
      { q with status := { q.status with vblank := true } } else q) :=
    fun q => Ppu.tame_ite (setVblank_tame q) (.refl q)
  exact (h1.trans (h2 _)).trans (h3 _)

/-- The last dot of a line: 340, or 339 of the pre-render line of an odd frame with rendering enabled (51 R336). -/
def Ppu.endOfLine (p : Ppu) : Bool :=
  p.dot == 340 || (p.dot == 339 && decide (p.scanline = -1) && p.frame % 2 == 1 && p.rendering)

/-- `advance`, by cases. -/
theorem advance_eq (p : Ppu) :
    p.advance =
      if p.endOfLine then
        if p.scanline = 260 then { p with dot := 0, scanline := -1, frame := p.frame + 1, frameReady := true }
        else { p with dot := 0, scanline := p.scanline + 1 }
      else { p with dot := p.dot + 1 } := by
  have e : (p.scanline + 1 = 261) = (p.scanline = 260) := by apply propext; omega
  unfold Ppu.advance Ppu.endOfLine
  simp only [e]
  by_cases hs : p.scanline = -1 ∧ p.dot + 1 = 340 ∧ p.frame % 2 = 1 ∧ p.rendering
  · have h339 : p.dot = 339 := by omega
    rw [if_pos hs]
    simp [hs.1, h339, hs.2.2.1, hs.2.2.2]
  · rw [if_neg hs]
    by_cases h : p.dot = 340
    · simp [h]
    · have hne : ¬ p.dot + 1 = 341 := by omega
      rw [if_neg hne, if_neg]
      simp only [Bool.or_eq_true, beq_iff_eq, Bool.and_eq_true, decide_eq_true_eq, not_or, h, not_false_eq_true,
        true_and]
      intro g
      exact hs ⟨g.1.1.2, by omega, g.1.2, g.2⟩

theorem advance_inv {p : Ppu} (h : p.Inv) : p.advance.Inv := by
  obtain ⟨h1, h2, h3, h4, h5, h6, h7⟩ := h
  rw [advance_eq]
  split
  · split
    · exact ⟨h1, h2, h3, h4, ⟨Int.le_refl (-1), show (-1 : Int) ≤ 260 by decide⟩, Nat.zero_le _, h7⟩
    · exact ⟨h1, h2, h3, h4, ⟨show -1 ≤ p.scanline + 1 by omega, show p.scanline + 1 ≤ 260 by omega⟩, Nat.zero_le _, h7⟩
  · next hne =>
    have : p.dot ≠ 340 := fun e => hne (by simp [Ppu.endOfLine, e])
    exact ⟨h1, h2, h3, h4, h5, show p.dot + 1 ≤ 340 by omega, h7⟩

/-- One PPU tick changes the PPU and the NMI latch (51 R339). -/
theorem ppuTick_eq (s : State) :
    ppuTick s = { s with
      ppu := (s.ppu.dotActions s.cart).advance
      cpu := { s.cpu with nmiPending := s.cpu.nmiPending || (s.ppu.atVblank && s.ppu.ctrl.nmiEnable) } } := rfl

end Sys2Proof.Machine
end

