-- ==== Sys2Proof/Laws/Dots.lean ====
section
/-! SUPPORT. What one PPU dot does, stated once: to v, to the status flags, to OAMADDR and to the frame buffer. -/

namespace Sys2Proof.Machine

/-- `advance` changes the position and frame_ready alone. -/
theorem advance_keeps (p : Ppu) :
    p.advance.v = p.v ∧ p.advance.oamaddr = p.oamaddr ∧ p.advance.status = p.status ∧ p.advance.frameOut = p.frameOut
      ∧ p.advance.oam2 = p.oam2 ∧ p.advance.oam2Count = p.oam2Count
      ∧ p.advance.sprite0InSecondary = p.sprite0InSecondary := by
  rw [advance_eq]
  split
  · split <;> exact ⟨rfl, rfl, rfl, rfl, rfl, rfl, rfl⟩
  · exact ⟨rfl, rfl, rfl, rfl, rfl, rfl, rfl⟩

/-- A scan of OAM writes secondary OAM, its count, the sprite-0 flag and the overflow flag, the last only with rendering
enabled. -/
theorem scanOam_keeps (l : Int) (rs : List Nat) (n : Nat) (p : Ppu) :
    (Ppu.scanOam l rs n p).v = p.v ∧ (Ppu.scanOam l rs n p).oamaddr = p.oamaddr
      ∧ (Ppu.scanOam l rs n p).status.spr0Hit = p.status.spr0Hit
      ∧ (Ppu.scanOam l rs n p).status.vblank = p.status.vblank ∧ (Ppu.scanOam l rs n p).frameOut = p.frameOut
      ∧ (p.rendering = false → (Ppu.scanOam l rs n p).status.sprOverflow = p.status.sprOverflow) := by
  induction rs generalizing n p with
  | nil => exact ⟨rfl, rfl, rfl, rfl, rfl, fun _ => rfl⟩
  | cons i rs ih =>
    unfold Ppu.scanOam
    split
    · split
      · exact ih (n + 1) { p with oam2 := p.copyRecord i n, sprite0InSecondary := p.sprite0InSecondary || i == 0 }
      · exact ⟨rfl, rfl, rfl, rfl, rfl, fun h => by simp [h]⟩
    · exact ih n p

/-- v after a dot of a rendering line: the horizontal increment, the vertical one, and the two copies from t. -/
theorem renderingLineDot_v (c : Cart) (l : Int) (d : Nat) (r : Bool) (p : Ppu) :
    (p.renderingLineDot c l d r).v =
      let v1 := if fetchDot d ∧ (d - 1) % 8 = 7 ∧ r then incrementX p.v else p.v
      let v2 := if d = 256 ∧ r then incrementY v1 else v1
      let v3 := if d = 257 ∧ r then (v2 &&& ~~~0x041F#15) ||| (p.t &&& 0x041F) else v2
      if l = -1 ∧ 280 ≤ d ∧ d ≤ 304 ∧ r then (v3 &&& ~~~0x7BE0#15) ||| (p.t &&& 0x7BE0) else v3 := by
  unfold Ppu.renderingLineDot
  simp only
  have h1 : ∀ q : Ppu, (q.pixelDot c l d).v = q.v := by intro q; unfold Ppu.pixelDot; split <;> rfl
  have h2 : ∀ q : Ppu, (if 0 ≤ l ∧ d = 65 then q.evaluateSprites l else q).v = q.v := by
    intro q
    split
    · exact (scanOam_keeps _ _ _ _).1
    · rfl
  have h3 : ∀ q : Ppu, (q.oamAddrDot d r).v = q.v := by intro q; unfold Ppu.oamAddrDot; split <;> rfl
  have h4 : ∀ q : Ppu, (q.copyDot l d r).v =
      if l = -1 ∧ 280 ≤ d ∧ d ≤ 304 ∧ r then (q.v &&& ~~~0x7BE0#15) ||| (q.t &&& 0x7BE0) else q.v := by
    intro q; unfold Ppu.copyDot; split <;> rfl
  have h5 : ∀ q : Ppu, (q.dot257 c l d r).v =
      (if d = 257 ∧ r then (q.v &&& ~~~0x041F#15) ||| (q.t &&& 0x041F) else q.v) ∧ (q.dot257 c l d r).t = q.t := by
    intro q
    unfold Ppu.dot257
    by_cases hd : d = 257 <;> cases r <;> simp [hd] <;> exact ⟨rfl, rfl⟩
  have h6 : ∀ q : Ppu, (q.verticalDot d r).v = (if d = 256 ∧ r then incrementY q.v else q.v)
      ∧ (q.verticalDot d r).t = q.t := by
    intro q; unfold Ppu.verticalDot; split <;> exact ⟨rfl, rfl⟩
  have h7 : ∀ q : Ppu, (q.backgroundDot c d r).v =
      (if fetchDot d ∧ (d - 1) % 8 = 7 ∧ r then incrementX q.v else q.v) ∧ (q.backgroundDot c d r).t = q.t := by
    intro q
    unfold Ppu.backgroundDot
    by_cases hf : fetchDot d
    · simp only [hf, if_true, true_and]
      unfold Ppu.fetchStep
      have hk : (d - 1) % 8 < 8 := Nat.mod_lt _ (by decide)
      generalize (d - 1) % 8 = k at *
      interval_cases k <;> cases r <;> exact ⟨rfl, rfl⟩
    · simp [hf]
  have h8 : ∀ q : Ppu, (if 0 ≤ l ∧ d = 1 then q.clearSecondaryOam else q).v = q.v
      ∧ (if 0 ≤ l ∧ d = 1 then q.clearSecondaryOam else q).t = q.t := by
    intro q; split <;> exact ⟨rfl, rfl⟩
  simp only [h1, h2, h3, h4, (h5 _).1, (h5 _).2, (h6 _).1, (h6 _).2, (h7 _).1, (h7 _).2, (h8 _).1, (h8 _).2]

/-- v after the actions of a dot. -/
theorem dotActions_v (c : Cart) (p : Ppu) :
    (p.dotActions c).v =
      if -1 ≤ p.scanline ∧ p.scanline ≤ 239 then (p.renderingLineDot c p.scanline p.dot p.rendering).v else p.v := by
  unfold Ppu.dotActions
  simp only
  have h1 : ∀ q : Ppu, (if p.scanline = 241 ∧ p.dot = 1 then
      { q with status := { q.status with vblank := true } } else q).v = q.v := by
    intro q; split <;> rfl
  rw [h1]
  have h2 : (if p.scanline = -1 ∧ p.dot = 1 then p.clearStatus else p).v = p.v
      ∧ (if p.scanline = -1 ∧ p.dot = 1 then p.clearStatus else p).t = p.t := by
    split <;> exact ⟨rfl, rfl⟩
  split
  · rw [renderingLineDot_v, renderingLineDot_v, h2.1, h2.2]
  · exact h2.1

/-- v after one PPU tick. -/
theorem ppuTick_v (s : State) :
    (ppuTick s).ppu.v =
      if -1 ≤ s.ppu.scanline ∧ s.ppu.scanline ≤ 239 then
        (s.ppu.renderingLineDot s.cart s.ppu.scanline s.ppu.dot s.ppu.rendering).v
      else s.ppu.v := by
  rw [ppuTick_eq]
  show ((s.ppu.dotActions s.cart).advance).v = _
  rw [(advance_keeps _).1, dotActions_v]

/-- The status flags, OAMADDR and the frame buffer after a dot of a rendering line: vblank stays; with rendering disabled
nothing is raised and OAMADDR stays; on a dot without a pixel the frame and the hit flag stay; on a dot with one, all is
what the pixel makes of a PPU with the same frame, hit flag and mask. -/
theorem renderingLineDot_outputs (c : Cart) (l : Int) (d : Nat) (r : Bool) (p : Ppu) (hr : r = p.rendering) :
    (p.renderingLineDot c l d r).status.vblank = p.status.vblank
      ∧ (r = false → (p.renderingLineDot c l d r).status.sprOverflow = p.status.sprOverflow
        ∧ (p.renderingLineDot c l d r).status.spr0Hit = p.status.spr0Hit
        ∧ (p.renderingLineDot c l d r).oamaddr = p.oamaddr)
      ∧ (¬(0 ≤ l ∧ 1 ≤ d ∧ d ≤ 256) → (p.renderingLineDot c l d r).frameOut = p.frameOut
        ∧ (p.renderingLineDot c l d r).status.spr0Hit = p.status.spr0Hit)
      ∧ (0 ≤ l ∧ 1 ≤ d ∧ d ≤ 256 →
        ∃ q : Ppu, q.frameOut = p.frameOut ∧ q.status.spr0Hit = p.status.spr0Hit ∧ q.mask = p.mask
          ∧ p.renderingLineDot c l d r = (q.renderPixel c (d - 1) l).updateSpriteCounters) := by
  unfold Ppu.renderingLineDot
  simp only
  generalize e8 : (if 0 ≤ l ∧ d = 1 then p.clearSecondaryOam else p) = p8
  have h8 : p8.status = p.status ∧ p8.oamaddr = p.oamaddr ∧ p8.frameOut = p.frameOut ∧ p8.mask = p.mask := by
    subst e8; split <;> exact ⟨rfl, rfl, rfl, rfl⟩
  generalize e7 : p8.backgroundDot c d r = p7
  have h7 : p7.status = p8.status ∧ p7.oamaddr = p8.oamaddr ∧ p7.frameOut = p8.frameOut ∧ p7.mask = p8.mask := by
    subst e7
    unfold Ppu.backgroundDot Ppu.fetchStep
    split
    · split <;> first | exact ⟨rfl, rfl, rfl, rfl⟩ | (split <;> exact ⟨rfl, rfl, rfl, rfl⟩)
    · exact ⟨rfl, rfl, rfl, rfl⟩
  generalize e6 : p7.verticalDot d r = p6
  have h6 : p6.status = p7.status ∧ p6.oamaddr = p7.oamaddr ∧ p6.frameOut = p7.frameOut ∧ p6.mask = p7.mask := by
    subst e6; unfold Ppu.verticalDot; split <;> exact ⟨rfl, rfl, rfl, rfl⟩
  generalize e5 : p6.dot257 c l d r = p5
  have h5 : p5.status = p6.status ∧ p5.oamaddr = p6.oamaddr ∧ p5.frameOut = p6.frameOut ∧ p5.mask = p6.mask := by
    subst e5
    unfold Ppu.dot257
    split
    · cases r <;> exact ⟨rfl, rfl, rfl, rfl⟩
    · exact ⟨rfl, rfl, rfl, rfl⟩
  generalize e4 : p5.copyDot l d r = p4
  have h4 : p4.status = p5.status ∧ p4.oamaddr = p5.oamaddr ∧ p4.frameOut = p5.frameOut ∧ p4.mask = p5.mask := by
    subst e4; unfold Ppu.copyDot; split <;> exact ⟨rfl, rfl, rfl, rfl⟩
  generalize e3 : p4.oamAddrDot d r = p3
  have h3 : p3.status = p4.status ∧ (r = false → p3.oamaddr = p4.oamaddr) ∧ p3.frameOut = p4.frameOut
      ∧ p3.mask = p4.mask := by
    subst e3
    unfold Ppu.oamAddrDot
    split
    · next h => exact ⟨rfl, fun hh => by simp [hh] at h, rfl, rfl⟩
    · exact ⟨rfl, fun _ => rfl, rfl, rfl⟩
  have m3 : p3.mask = p.mask := by rw [h3.2.2.2, h4.2.2.2, h5.2.2.2, h6.2.2.2, h7.2.2.2, h8.2.2.2]
  have r3 : p3.rendering = r := by rw [hr]; unfold Ppu.rendering; rw [m3]
  generalize e2 : (if 0 ≤ l ∧ d = 65 then p3.evaluateSprites l else p3) = p2
  have h2 : p2.status.spr0Hit = p3.status.spr0Hit ∧ p2.status.vblank = p3.status.vblank ∧ p2.oamaddr = p3.oamaddr
      ∧ p2.frameOut = p3.frameOut ∧ (r = false → p2.status.sprOverflow = p3.status.sprOverflow)
      ∧ p2.mask = p3.mask := by
    subst e2
    split
    · obtain ⟨_, b, c', d', e, f⟩ := scanOam_keeps l (List.range 64) 0 p3
      exact ⟨c', d', b, e, fun h => f (by rw [r3, h]), (evaluateSprites_tame l p3).1.mask⟩
    · exact ⟨rfl, rfl, rfl, rfl, fun _ => rfl, rfl⟩
  have m2 : p2.mask = p.mask := by rw [h2.2.2.2.2.2, m3]
  have st3 : p3.status = p.status := by rw [h3.1, h4.1, h5.1, h6.1, h7.1, h8.1]
  have fr3 : p3.frameOut = p.frameOut := by rw [h3.2.2.1, h4.2.2.1, h5.2.2.1, h6.2.2.1, h7.2.2.1, h8.2.2.1]
  have oa3 : r = false → p3.oamaddr = p.oamaddr := fun h => by
    rw [h3.2.1 h, h4.2.1, h5.2.1, h6.2.1, h7.2.1, h8.2.1]
  refine ⟨?_, ?_, ?_, ?_⟩
  · have : (p2.pixelDot c l d).status.vblank = p2.status.vblank := by unfold Ppu.pixelDot; split <;> rfl
    rw [this, h2.2.1, st3]
  · intro h
    have hm : p2.mask.showBg = false ∧ p2.mask.showSpr = false := by
      rw [m2]; rw [h] at hr; simpa [Ppu.rendering] using hr.symm
    have : (p2.pixelDot c l d).status.spr0Hit = p2.status.spr0Hit
        ∧ (p2.pixelDot c l d).status.sprOverflow = p2.status.sprOverflow
        ∧ (p2.pixelDot c l d).oamaddr = p2.oamaddr := by
      unfold Ppu.pixelDot
      split
      · refine ⟨?_, rfl, rfl⟩
        show (p2.status.spr0Hit || _) = _
        simp [Ppu.spr0Hits, hm.1]
      · exact ⟨rfl, rfl, rfl⟩
    rw [this.1, this.2.1, this.2.2, h2.1, h2.2.2.2.2.1 h, h2.2.2.1, st3, oa3 h]
    exact ⟨rfl, rfl, rfl⟩
  · intro h
    have : p2.pixelDot c l d = p2 := by unfold Ppu.pixelDot; rw [if_neg h]
    rw [this, h2.2.2.2.1, fr3, h2.1, st3]
    exact ⟨rfl, rfl⟩
  · intro h
    refine ⟨p2, by rw [h2.2.2.2.1, fr3], by rw [h2.1, st3], m2, ?_⟩
    unfold Ppu.pixelDot
    rw [if_pos h]

end Sys2Proof.Machine
end

