-- ==== Sys2Proof/Laws/State.lean ====
section
/-! SUPPORT. One lemma per field and per register update, so that no later proof unfolds a record update. -/

namespace Sys2Proof.Machine

@[simp] theorem State.setA_cpu (s : State) (v : Byte) :
    (s.setA v).cpu = { s.cpu with a := v } := rfl

@[simp] theorem State.setA_ppu (s : State) (v : Byte) : (s.setA v).ppu = s.ppu := rfl

@[simp] theorem State.setA_cart (s : State) (v : Byte) : (s.setA v).cart = s.cart := rfl

@[simp] theorem State.setA_wram (s : State) (v : Byte) : (s.setA v).wram = s.wram := rfl

@[simp] theorem State.setA_pads (s : State) (v : Byte) : (s.setA v).pads = s.pads := rfl

@[simp] theorem State.setA_port (s : State) (v : Byte) : (s.setA v).port = s.port := rfl

@[simp] theorem State.setX_cpu (s : State) (v : Byte) :
    (s.setX v).cpu = { s.cpu with x := v } := rfl

@[simp] theorem State.setX_ppu (s : State) (v : Byte) : (s.setX v).ppu = s.ppu := rfl

@[simp] theorem State.setX_cart (s : State) (v : Byte) : (s.setX v).cart = s.cart := rfl

@[simp] theorem State.setX_wram (s : State) (v : Byte) : (s.setX v).wram = s.wram := rfl

@[simp] theorem State.setX_pads (s : State) (v : Byte) : (s.setX v).pads = s.pads := rfl

@[simp] theorem State.setX_port (s : State) (v : Byte) : (s.setX v).port = s.port := rfl

@[simp] theorem State.setY_cpu (s : State) (v : Byte) :
    (s.setY v).cpu = { s.cpu with y := v } := rfl

@[simp] theorem State.setY_ppu (s : State) (v : Byte) : (s.setY v).ppu = s.ppu := rfl

@[simp] theorem State.setY_cart (s : State) (v : Byte) : (s.setY v).cart = s.cart := rfl

@[simp] theorem State.setY_wram (s : State) (v : Byte) : (s.setY v).wram = s.wram := rfl

@[simp] theorem State.setY_pads (s : State) (v : Byte) : (s.setY v).pads = s.pads := rfl

@[simp] theorem State.setY_port (s : State) (v : Byte) : (s.setY v).port = s.port := rfl

@[simp] theorem State.setS_cpu (s : State) (v : Byte) :
    (s.setS v).cpu = { s.cpu with s := v } := rfl

@[simp] theorem State.setS_ppu (s : State) (v : Byte) : (s.setS v).ppu = s.ppu := rfl

@[simp] theorem State.setS_cart (s : State) (v : Byte) : (s.setS v).cart = s.cart := rfl

@[simp] theorem State.setS_wram (s : State) (v : Byte) : (s.setS v).wram = s.wram := rfl

@[simp] theorem State.setS_pads (s : State) (v : Byte) : (s.setS v).pads = s.pads := rfl

@[simp] theorem State.setS_port (s : State) (v : Byte) : (s.setS v).port = s.port := rfl

@[simp] theorem State.setP_cpu (s : State) (v : Byte) :
    (s.setP v).cpu = { s.cpu with p := v } := rfl

@[simp] theorem State.setP_ppu (s : State) (v : Byte) : (s.setP v).ppu = s.ppu := rfl

@[simp] theorem State.setP_cart (s : State) (v : Byte) : (s.setP v).cart = s.cart := rfl

@[simp] theorem State.setP_wram (s : State) (v : Byte) : (s.setP v).wram = s.wram := rfl

@[simp] theorem State.setP_pads (s : State) (v : Byte) : (s.setP v).pads = s.pads := rfl

@[simp] theorem State.setP_port (s : State) (v : Byte) : (s.setP v).port = s.port := rfl

@[simp] theorem State.setPc_cpu (s : State) (w : Addr) :
    (s.setPc w).cpu = { s.cpu with pc := w } := rfl

@[simp] theorem State.setPc_ppu (s : State) (w : Addr) : (s.setPc w).ppu = s.ppu := rfl

@[simp] theorem State.setPc_cart (s : State) (w : Addr) : (s.setPc w).cart = s.cart := rfl

@[simp] theorem State.setPc_wram (s : State) (w : Addr) : (s.setPc w).wram = s.wram := rfl

@[simp] theorem State.setPc_pads (s : State) (w : Addr) : (s.setPc w).pads = s.pads := rfl

@[simp] theorem State.setPc_port (s : State) (w : Addr) : (s.setPc w).port = s.port := rfl

@[simp] theorem State.setLatent_cpu (s : State) (a : Addr) (m c : Bool) :
    (s.setLatent a m c).cpu = { s.cpu with operandAddr := a, isMemoryOperand := m, pageCrossed := c } := rfl

@[simp] theorem State.setLatent_ppu (s : State) (a : Addr) (m c : Bool) : (s.setLatent a m c).ppu = s.ppu := rfl

@[simp] theorem State.setLatent_cart (s : State) (a : Addr) (m c : Bool) : (s.setLatent a m c).cart = s.cart := rfl

@[simp] theorem State.setLatent_wram (s : State) (a : Addr) (m c : Bool) : (s.setLatent a m c).wram = s.wram := rfl

@[simp] theorem State.setLatent_pads (s : State) (a : Addr) (m c : Bool) : (s.setLatent a m c).pads = s.pads := rfl

@[simp] theorem State.setLatent_port (s : State) (a : Addr) (m c : Bool) : (s.setLatent a m c).port = s.port := rfl

@[simp] theorem State.setCycles_cpu (s : State) (n : Nat) :
    (s.setCycles n).cpu = { s.cpu with cyclesUntilNext := BitVec.ofNat 16 n } := rfl

@[simp] theorem State.setCycles_ppu (s : State) (n : Nat) : (s.setCycles n).ppu = s.ppu := rfl

@[simp] theorem State.setCycles_cart (s : State) (n : Nat) : (s.setCycles n).cart = s.cart := rfl

@[simp] theorem State.setCycles_wram (s : State) (n : Nat) : (s.setCycles n).wram = s.wram := rfl

@[simp] theorem State.setCycles_pads (s : State) (n : Nat) : (s.setCycles n).pads = s.pads := rfl

@[simp] theorem State.setCycles_port (s : State) (n : Nat) : (s.setCycles n).port = s.port := rfl

@[simp] theorem State.setFlag_cpu (s : State) (f : Flag) (b : Bool) :
    (s.setFlag f b).cpu = { s.cpu with p := withFlag s.cpu.p f b } := rfl

@[simp] theorem State.setFlag_ppu (s : State) (f : Flag) (b : Bool) : (s.setFlag f b).ppu = s.ppu := rfl

@[simp] theorem State.setFlag_cart (s : State) (f : Flag) (b : Bool) : (s.setFlag f b).cart = s.cart := rfl

@[simp] theorem State.setFlag_wram (s : State) (f : Flag) (b : Bool) : (s.setFlag f b).wram = s.wram := rfl

@[simp] theorem State.setFlag_pads (s : State) (f : Flag) (b : Bool) : (s.setFlag f b).pads = s.pads := rfl

@[simp] theorem State.setFlag_port (s : State) (f : Flag) (b : Bool) : (s.setFlag f b).port = s.port := rfl

@[simp] theorem State.setZN_cpu (s : State) (v : Byte) :
    (s.setZN v).cpu = { s.cpu with p := withZN s.cpu.p v } := rfl

@[simp] theorem State.setZN_ppu (s : State) (v : Byte) : (s.setZN v).ppu = s.ppu := rfl

@[simp] theorem State.setZN_cart (s : State) (v : Byte) : (s.setZN v).cart = s.cart := rfl

@[simp] theorem State.setZN_wram (s : State) (v : Byte) : (s.setZN v).wram = s.wram := rfl

@[simp] theorem State.setZN_pads (s : State) (v : Byte) : (s.setZN v).pads = s.pads := rfl

@[simp] theorem State.setZN_port (s : State) (v : Byte) : (s.setZN v).port = s.port := rfl

@[simp] theorem State.advancePc_cpu (s : State) (n : Nat) :
    (s.advancePc n).cpu = { s.cpu with pc := s.cpu.pc + BitVec.ofNat 16 n } := rfl

@[simp] theorem State.advancePc_ppu (s : State) (n : Nat) : (s.advancePc n).ppu = s.ppu := rfl

@[simp] theorem State.advancePc_cart (s : State) (n : Nat) : (s.advancePc n).cart = s.cart := rfl

@[simp] theorem State.advancePc_wram (s : State) (n : Nat) : (s.advancePc n).wram = s.wram := rfl

@[simp] theorem State.advancePc_pads (s : State) (n : Nat) : (s.advancePc n).pads = s.pads := rfl

@[simp] theorem State.advancePc_port (s : State) (n : Nat) : (s.advancePc n).port = s.port := rfl

end Sys2Proof.Machine
end

