-- ==== Sys2Proof/Laws/Ops.lean ====
section
/-! SUPPORT. What each shared operation does, in one equation: the stack, 16-bit reads, interrupt entry and return. -/

namespace Sys2Proof.Machine

theorem stackAddr_toNat (sp : Byte) : (stackAddr sp).toNat = 256 + sp.toNat := by
  simp [stackAddr, toNat_w16]

/-- The index in work RAM of the stack byte that `sp` designates. -/
theorem wramIndex_stackAddr (sp : Byte) : wramIndex (stackAddr sp) = 256 + sp.toNat := by
  have := sp.isLt
  rw [wramIndex, stackAddr_toNat]
  omega

theorem stackAddr_lt (sp : Byte) : (stackAddr sp).toNat < 0x2000 := by
  have := sp.isLt
  rw [stackAddr_toNat]
  omega

/-- A push stores in work RAM and moves S; it does nothing else. -/
theorem push_eq (s : State) (v : Byte) :
    push s v = { s with wram := s.wram.write (256 + s.cpu.s.toNat) v, cpu := { s.cpu with s := s.cpu.s - 1 } } := by
  rw [push, memWrite_wram _ _ (stackAddr_lt _), wramIndex_stackAddr]
  rfl

/-- A pull moves S and reads work RAM. -/
theorem pull_eq (s : State) :
    pull s = (s.wram.read (256 + (s.cpu.s + 1).toNat), { s with cpu := { s.cpu with s := s.cpu.s + 1 } }) := by
  rw [pull, memRead_wram _ (stackAddr_lt _), wramIndex_stackAddr]
  rfl

theorem push16_eq (s : State) (w : Addr) :
    push16 s w =
      { s with
        wram := (s.wram.write (256 + s.cpu.s.toNat) (hi w)).write (256 + (s.cpu.s - 1).toNat) (lo w)
        cpu := { s.cpu with s := s.cpu.s - 2 } } := by
  have : s.cpu.s - 1 - 1 = s.cpu.s - 2 := by bv_omega
  simp only [push16, push_eq, this]

theorem pull16_eq (s : State) :
    pull16 s =
      (w16 (s.wram.read (256 + (s.cpu.s + 2).toNat)) (s.wram.read (256 + (s.cpu.s + 1).toNat)),
       { s with cpu := { s.cpu with s := s.cpu.s + 2 } }) := by
  have : s.cpu.s + 1 + 1 = s.cpu.s + 2 := by bv_omega
  simp only [pull16, pull_eq, this]

theorem readPair_state (s : State) (l h : Addr) :
    (readPair s l h).2 = { s with ppu := (readPair s l h).2.ppu, pads := (readPair s l h).2.pads } := by
  simp only [readPair]
  rw [memRead_state, memRead_state s l]

@[simp] theorem readPair_cpu (s : State) (l h : Addr) : (readPair s l h).2.cpu = s.cpu := by rw [readPair_state]
@[simp] theorem readPair_cart (s : State) (l h : Addr) : (readPair s l h).2.cart = s.cart := by rw [readPair_state]
@[simp] theorem readPair_wram (s : State) (l h : Addr) : (readPair s l h).2.wram = s.wram := by rw [readPair_state]
@[simp] theorem readPair_port (s : State) (l h : Addr) : (readPair s l h).2.port = s.port := by rw [readPair_state]

/-- Two reads without side effects. -/
theorem readPair_quiet {s : State} {l h : Addr} (hl : readHasSideEffect l = false) (hh : readHasSideEffect h = false) :
    readPair s l h = (w16 (peek s h) (peek s l), s) := by
  simp only [readPair, peek, memRead_quiet hl, memRead_quiet hh]

theorem quiet_wram {a : Addr} (h : a.toNat < 0x2000) : readHasSideEffect a = false := by
  have e16 : a ≠ 0x4016#16 := fun e => by subst e; simp at h
  have e17 : a ≠ 0x4017#16 := fun e => by subst e; simp at h
  have : ¬ 0x2000 ≤ a.toNat := by omega
  simp [readHasSideEffect, e16, e17, this]

theorem quiet_cart {a : Addr} (h : 0x4020 ≤ a.toNat) : readHasSideEffect a = false := by
  have e16 : a ≠ 0x4016#16 := fun e => by subst e; simp at h
  have e17 : a ≠ 0x4017#16 := fun e => by subst e; simp at h
  have : ¬ a.toNat < 0x4000 := by omega
  simp [readHasSideEffect, e16, e17, this]

theorem zext16_lt (v : Byte) : (zext16 v).toNat < 256 := by
  have := v.isLt
  simp only [zext16, BitVec.toNat_setWidth]
  omega

theorem quiet_zext16 (v : Byte) : readHasSideEffect (zext16 v) = false :=
  quiet_wram (Nat.lt_trans (zext16_lt v) (by decide))

/-- A vector is read from the cartridge. -/
theorem read16_cart (s : State) (a : Addr) (h : 0x4020 ≤ a.toNat) (h' : 0x4020 ≤ (a + 1).toNat) :
    read16 s a = (w16 (s.cart.cpuRead (a + 1)) (s.cart.cpuRead a), s) := by
  simp only [read16, readPair, memRead_cart _ h, memRead_cart _ h']

theorem read16_reset (s : State) :
    read16 s resetVector = (w16 (s.cart.cpuRead 0xFFFD) (s.cart.cpuRead 0xFFFC), s) := read16_cart _ _ (by decide) (by decide)

theorem read16_nmi (s : State) :
    read16 s nmiVector = (w16 (s.cart.cpuRead 0xFFFB) (s.cart.cpuRead 0xFFFA), s) := read16_cart _ _ (by decide) (by decide)

theorem read16_brk (s : State) :
    read16 s brkVector = (w16 (s.cart.cpuRead 0xFFFF) (s.cart.cpuRead 0xFFFE), s) := read16_cart _ _ (by decide) (by decide)

/-- Work RAM after the three pushes of an interrupt entry. -/
def entryStack (s : State) (ret : Addr) (p : Byte) : Memory :=
  ((s.wram.write (256 + s.cpu.s.toNat) (hi ret)).write (256 + (s.cpu.s - 1).toNat) (lo ret)).write
    (256 + (s.cpu.s - 2).toNat) p

/-- Taking an interrupt at a vector in the cartridge. -/
theorem enterInterrupt_eq (s : State) (ret : Addr) (p : Byte) (v : Addr) (h : 0x4020 ≤ v.toNat)
    (h' : 0x4020 ≤ (v + 1).toNat) :
    enterInterrupt s ret p v =
      { s with
        wram := entryStack s ret p
        cpu := { s.cpu with
          s := s.cpu.s - 3, p := withFlag s.cpu.p .i true, pc := w16 (s.cart.cpuRead (v + 1)) (s.cart.cpuRead v) } } := by
  have : s.cpu.s - 2 - 1 = s.cpu.s - 3 := by bv_omega
  simp only [enterInterrupt, push16_eq, push_eq, read16_cart _ v h h', this, entryStack]
  rfl

/-- Returning from one. -/
theorem returnFromInterrupt_eq (s : State) :
    returnFromInterrupt s =
      { s with
        cpu := { s.cpu with
          s := s.cpu.s + 3
          p := pulledP s.cpu.p (s.wram.read (256 + (s.cpu.s + 1).toNat))
          pc := w16 (s.wram.read (256 + (s.cpu.s + 3).toNat)) (s.wram.read (256 + (s.cpu.s + 2).toNat)) } } := by
  have e3 : s.cpu.s + 1 + 2 = s.cpu.s + 3 := by bv_omega
  have e2 : s.cpu.s + 1 + 1 = s.cpu.s + 2 := by bv_omega
  simp only [returnFromInterrupt, pull_eq, pull16_eq, State.setP, State.setPc, e3, e2]

/-- NMI entry. -/
theorem nmiEntry_eq (s : State) :
    nmiEntry s =
      { s with
        wram := entryStack s s.cpu.pc (pushedPNmi s.cpu.p)
        cpu := { s.cpu with
          s := s.cpu.s - 3, p := withFlag s.cpu.p .i true, pc := w16 (s.cart.cpuRead 0xFFFB) (s.cart.cpuRead 0xFFFA)
          cyclesUntilNext := 7, nmiPending := false } } := by
  simp only [nmiEntry, enterInterrupt_eq s _ _ nmiVector (by decide) (by decide)]
  rfl

end Sys2Proof.Machine
end

