-- ==== Sys2Proof/Laws/Operands.lean ====
section
/-! SUPPORT. What resolving an operand, loading and storing do, and what they leave alone. -/

namespace Sys2Proof.Machine

/-- A pointer in page 0 is read without a side effect. -/
theorem readZeroPagePointer_eq (s : State) (p : Byte) :
    readZeroPagePointer s p = (w16 (peek s (zext16 (p + 1))) (peek s (zext16 p)), s) :=
  readPair_quiet (quiet_zext16 _) (quiet_zext16 _)

/-- Resolving writes the latent operand state; an indirect pointer's reads may act on a device. -/
theorem resolve_state (o : Operand) (s : State) :
    resolve o s =
      { s with
        cpu := { s.cpu with
          operandAddr := (resolve o s).cpu.operandAddr
          isMemoryOperand := (resolve o s).cpu.isMemoryOperand
          pageCrossed := (resolve o s).cpu.pageCrossed }
        ppu := (resolve o s).ppu
        pads := (resolve o s).pads } := by
  cases o <;> first
    | rfl
    | (simp only [resolve, setIndexed, readZeroPagePointer_eq, State.setLatent]; done)
    | simp only [resolve, State.setLatent, readPair_cpu, readPair_cart, readPair_wram, readPair_port]

/-- The reads of a resolution are without side effects: only an indirect pointer can be on a device. -/
def quietPointer : Operand → Prop
  | .ind p => readHasSideEffect p = false ∧ readHasSideEffect (indirectHighAddr p) = false
  | _ => True

theorem resolve_quiet {o : Operand} {s : State} (h : quietPointer o) :
    (resolve o s).ppu = s.ppu ∧ (resolve o s).pads = s.pads := by
  cases o <;> simp only [resolve, setIndexed, readZeroPagePointer_eq, State.setLatent, and_self]
  simp only [quietPointer] at h
  simp only [readPair_quiet h.1 h.2, and_self]

@[simp] theorem resolve_a (o : Operand) (s : State) : (resolve o s).cpu.a = s.cpu.a := by rw [resolve_state]
@[simp] theorem resolve_x (o : Operand) (s : State) : (resolve o s).cpu.x = s.cpu.x := by rw [resolve_state]
@[simp] theorem resolve_y (o : Operand) (s : State) : (resolve o s).cpu.y = s.cpu.y := by rw [resolve_state]
@[simp] theorem resolve_s (o : Operand) (s : State) : (resolve o s).cpu.s = s.cpu.s := by rw [resolve_state]
@[simp] theorem resolve_p (o : Operand) (s : State) : (resolve o s).cpu.p = s.cpu.p := by rw [resolve_state]
@[simp] theorem resolve_pc (o : Operand) (s : State) : (resolve o s).cpu.pc = s.cpu.pc := by rw [resolve_state]
@[simp] theorem resolve_cart (o : Operand) (s : State) : (resolve o s).cart = s.cart := by rw [resolve_state]
@[simp] theorem resolve_wram (o : Operand) (s : State) : (resolve o s).wram = s.wram := by rw [resolve_state]
@[simp] theorem resolve_port (o : Operand) (s : State) : (resolve o s).port = s.port := by rw [resolve_state]

/-- A load reads: it changes the PPU or the controllers, or nothing. -/
theorem load_state (o : Operand) (s : State) :
    (load o s).2 = { s with ppu := (load o s).2.ppu, pads := (load o s).2.pads } := by
  cases o <;> first | rfl | exact memRead_state _ _

@[simp] theorem load_cpu (o : Operand) (s : State) : (load o s).2.cpu = s.cpu := by rw [load_state]
@[simp] theorem load_cart (o : Operand) (s : State) : (load o s).2.cart = s.cart := by rw [load_state]
@[simp] theorem load_wram (o : Operand) (s : State) : (load o s).2.wram = s.wram := by rw [load_state]
@[simp] theorem load_port (o : Operand) (s : State) : (load o s).2.port = s.port := by rw [load_state]

/-- A load at an address without a side effect changes nothing. -/
theorem load_quiet {o : Operand} {s : State} (h : readHasSideEffect s.cpu.operandAddr = false) : (load o s).2 = s := by
  cases o <;> first | rfl | exact memRead_quiet h

/-- The state after resolving an operand and loading it, relative to the state before. -/
theorem load_resolve_state (o o' : Operand) (s : State) :
    (load o (resolve o' s)).2 =
      { s with
        cpu := { s.cpu with
          operandAddr := (resolve o' s).cpu.operandAddr
          isMemoryOperand := (resolve o' s).cpu.isMemoryOperand
          pageCrossed := (resolve o' s).cpu.pageCrossed }
        ppu := (load o (resolve o' s)).2.ppu
        pads := (load o (resolve o' s)).2.pads } := by
  refine (load_state _ _).trans ?_
  rw [State.mk.injEq]
  exact ⟨congrArg State.cpu (resolve_state o' s), rfl, resolve_cart _ _, resolve_wram _ _, rfl, resolve_port _ _⟩

/-- A store in a memory mode is one bus write. -/
theorem store_memory {o : Operand} (h : o ≠ .acc) (v : Byte) (s : State) :
    store o v s = memWrite s s.cpu.operandAddr v := by
  cases o <;> first | rfl | exact absurd rfl h

@[simp] theorem store_port (o : Operand) (v : Byte) (s : State) : (store o v s).port = s.port := by
  cases o <;> first | rfl | exact memWrite_port _ _ _

@[simp] theorem store_p (o : Operand) (v : Byte) (s : State) : (store o v s).cpu.p = s.cpu.p := by
  cases o <;> first | rfl | exact memWrite_p _ _ _

end Sys2Proof.Machine
end

