-- ==== Sys2Proof/Laws/Exec.lean ====
section
/-! SUPPORT. Every arm of exec is one of two shapes, a branch or resolve-perform-charge (40 R161), so a fact about all
instructions is a fact about the mnemonics. -/

namespace Sys2Proof.Machine

/-- What a mnemonic performs; a branch performs nothing here. -/
def performOf : Mnemonic → Operand → State → State
  | .brk => brk
  | .ora => ora
  | .undef => undef
  | .slo => slo
  | .nopU => nopU
  | .asl => asl
  | .php => php
  | .anc => anc
  | .clc => clc
  | .jsr => jsr
  | .and => andA
  | .rla => rla
  | .bit => bit
  | .rol => rol
  | .plp => plp
  | .sec => sec
  | .rti => rti
  | .eor => eor
  | .sre => sre
  | .lsr => lsr
  | .pha => pha
  | .alr => alr
  | .jmp => jmp
  | .cli => cli
  | .rts => rts
  | .adc => adc
  | .rra => rra
  | .ror => ror
  | .pla => pla
  | .sei => sei
  | .sta => sta
  | .sax => sax
  | .sty => sty
  | .stx => stx
  | .dey => dey
  | .txa => txa
  | .tya => tya
  | .txs => txs
  | .ldy => ldy
  | .lda => lda
  | .ldx => ldx
  | .lax => lax
  | .tay => tay
  | .tax => tax
  | .clv => clv
  | .tsx => tsx
  | .cpy => cpy
  | .cmp => cmp
  | .dcp => dcp
  | .dec => dec
  | .iny => iny
  | .dex => dex
  | .cld => cld
  | .cpx => cpx
  | .sbc => sbc
  | .isc => isc
  | .inc => inc
  | .inx => inx
  | .nop => nop
  | .sbcU => sbcU
  | .sed => sed
  | .bpl | .bmi | .bvc | .bvs | .bcc | .bcs | .bne | .beq => fun _ s => s

/-- When a branch is taken (44 R232 to R239). -/
def takenOf : Mnemonic → State → Bool
  | .bpl => fun s => !s.flag .n
  | .bmi => fun s => s.flag .n
  | .bvc => fun s => !s.flag .v
  | .bvs => fun s => s.flag .v
  | .bcc => fun s => !s.flag .c
  | .bcs => fun s => s.flag .c
  | .bne => fun s => !s.flag .z
  | .beq => fun s => s.flag .z
  | _ => fun _ => false

/-- Every instruction that is no branch resolves, performs and is charged. -/
theorem exec_run (i : Instr) (s : State) (h : i.info.penalty ≠ .branch) :
    exec i s = run i.operand i.info.base i.info.penalty (performOf i.mnemonic) s := by
  cases i with
  | undef op => cases op <;> rfl
  | bpl | bmi | bvc | bvs | bcc | bcs | bne | beq =>
    refine absurd ?_ h
    dsimp only [Instr.info, Instr.opcode]
    rfl
  | _ =>
    dsimp only [Instr.info, Instr.mnemonic, Instr.opcode, Instr.operand]
    rfl

/-- Every branch. -/
theorem exec_branch (i : Instr) (s : State) (h : i.info.penalty = .branch) :
    ∃ o, i.operand = .rel o ∧ exec i s = runBranch o (takenOf i.mnemonic) s := by
  cases i with
  | undef op => cases op <;> exact absurd h (by decide)
  | bpl o | bmi o | bvc o | bvs o | bcc o | bcs o | bne o | beq o =>
    refine ⟨o, rfl, ?_⟩
    dsimp only [Instr.info, Instr.mnemonic, Instr.opcode]
    rfl
  | _ =>
    dsimp only [Instr.info, Instr.opcode] at h
    exact absurd h (by decide)

theorem runBranch_eq (o : Byte) (taken : State → Bool) (s : State) :
    runBranch o taken s =
      .next (if taken (resolve (.rel o) s) then
        charge 2 .branch (1 + (if (resolve (.rel o) s).cpu.pageCrossed then 1 else 0))
          ((resolve (.rel o) s).setPc (resolve (.rel o) s).cpu.operandAddr)
      else charge 2 .branch 0 (resolve (.rel o) s)) := by
  unfold runBranch
  simp only
  split <;> rfl

/-- The state an instruction ends in. -/
def execNext (i : Instr) (s : State) : State :=
  match exec i s with
  | .next t => t
  | .fault _ | .refused _ => s

/-- No instruction stops (60 R352). -/
theorem exec_next (i : Instr) (s : State) : exec i s = .next (execNext i s) := by
  unfold execNext
  by_cases h : i.info.penalty = .branch
  · obtain ⟨o, -, e⟩ := exec_branch i s h
    rw [e, runBranch_eq]
  · rw [exec_run i s h]
    rfl

end Sys2Proof.Machine
end

