-- ==== Sys2Proof/Laws/Fetch.lean ====
section
/-! SUPPORT. The fetch reads what the decoder decodes. -/

namespace Sys2Proof.Machine

/-- A fetched byte, PC moved past it. -/
theorem fetchByte_eq (s : State) :
    fetchByte s = ((memRead s s.cpu.pc).1,
      { (memRead s s.cpu.pc).2 with cpu := { s.cpu with pc := s.cpu.pc + 1 } }) := by
  unfold fetchByte State.advancePc State.setPc
  simp only [memRead_cpu]
  rfl

/-- The reads of a fetch, one after the other: the state after reading at `a`, PC being left alone. -/
def afterRead (s : State) (a : Addr) : State := (memRead s a).2

/-- A bus read does not depend on the CPU's registers, nor change with them. -/
theorem memRead_withCpu (s : State) (c : Cpu) (a : Addr) :
    memRead { s with cpu := c } a = ((memRead s a).1, { (memRead s a).2 with cpu := c }) := by
  unfold memRead
  split <;> rfl

theorem peek_withCpu (s : State) (c : Cpu) (a : Addr) : peek { s with cpu := c } a = peek s a := by
  unfold peek
  rw [memRead_withCpu]

/-- The fetch, with its reads written out. -/
theorem fetch_eq (s : State) :
    fetch s =
      let pc := s.cpu.pc
      let op := peek s pc
      let s1 := afterRead s pc
      let s2 := afterRead s1 (pc + 1)
      let s3 := afterRead s2 (pc + 2)
      match (opInfo op).mode.operandBytes with
      | 0 => (decodeOp op 0 0, { s1 with cpu := { s.cpu with pc := pc + 1 } })
      | 1 =>
        (decodeOp op (peek s1 (pc + 1)) 0,
          { (if (opInfo op).mnemonic = .nopU ∧ (opInfo op).mode = .imm then s1 else s2) with
            cpu := { s.cpu with pc := pc + 2 } })
      | _ =>
        (decodeOp op (peek s1 (pc + 1)) (peek s2 (pc + 2)), { s3 with cpu := { s.cpu with pc := pc + 3 } }) := by
  have e2 : s.cpu.pc + 1 + 1 = s.cpu.pc + 2 := by bv_omega
  have e3 : s.cpu.pc + 2 + 1 = s.cpu.pc + 3 := by bv_omega
  have op : (fetchByte s).1 = peek s s.cpu.pc := rfl
  unfold fetch
  simp only [op]
  generalize (opInfo (peek s s.cpu.pc)).mode.operandBytes = k
  match k with
  | 0 => simp only [fetchByte_eq, afterRead]
  | 1 =>
    by_cases h : (opInfo (peek s s.cpu.pc)).mnemonic = .nopU ∧ (opInfo (peek s s.cpu.pc)).mode = .imm
    · simp only [if_pos h, fetchByte_eq, afterRead, skipByte, peek_withCpu, State.advancePc, State.setPc]
      rw [← e2]
      rfl
    · simp only [if_neg h]
      simp only [fetchByte_eq, afterRead, peek, memRead_withCpu, e2]
  | _ + 2 => simp only [fetchByte_eq, afterRead, peek, memRead_withCpu, e2, e3]

end Sys2Proof.Machine
end

