-- ==== Sys2Proof/Laws/Inv.lean ====
section
/-! SUPPORT. What holds in the middle of an instruction, and that every shared operation and every mnemonic keeps it; and
that no instruction touches the host's side or the launch input. -/

namespace Sys2Proof.Machine

/-- The state's invariant but for the cycle counter and the host's side. -/
def State.Mid (s : State) : Prop := s.cpu.Ok ∧ s.ppu.Inv ∧ s.cart.Inv ∧ Memory.holds Config.wramSize s.wram

/-- Where the PPU stands: line, dot, frame, and whether a frame is ready (10 R36). -/
def Ppu.position (p : Ppu) : Int × Nat × Nat × Bool := (p.scanline, p.dot, p.frame, p.frameReady)

/-- `t` came from `s` by CPU work: the middle invariant, the constant bits of P, the host's side, the launch input and the
PPU's position. -/
structure Works (s t : State) : Prop where
  mid : s.Mid → t.Mid
  port : t.port = s.port
  rom : Cart.SameRom s.cart t.cart
  bFlag : flagOf t.cpu.p .b = flagOf s.cpu.p .b
  uFlag : flagOf t.cpu.p .u = flagOf s.cpu.p .u
  pos : t.ppu.position = s.ppu.position

theorem Works.refl (s : State) : Works s s := ⟨id, rfl, .refl _, rfl, rfl, rfl⟩

theorem Works.trans {s t u : State} (h : Works s t) (g : Works t u) : Works s u :=
  ⟨fun m => g.1 (h.1 m), g.2.trans h.2, h.3.trans g.3, g.4.trans h.4, g.5.trans h.5, g.6.trans h.6⟩

/-- A change of CPU registers only. -/
theorem Works.ofCpu (s : State) (c : Cpu) (hb : flagOf c.p .b = flagOf s.cpu.p .b)
    (hu : flagOf c.p .u = flagOf s.cpu.p .u) (hd : c.dmaRemaining = s.cpu.dmaRemaining)
    (hi : c.irqPending = s.cpu.irqPending) : Works s { s with cpu := c } := by
  refine ⟨fun m => ⟨?_, m.2⟩, rfl, .refl _, hb, hu, rfl⟩
  show flagOf c.p .b = false ∧ flagOf c.p .u = true ∧ c.dmaRemaining ≤ 514 ∧ c.irqPending = false
  rw [hb, hu, hd, hi]
  exact m.1

theorem works_setA (s : State) (v : Byte) : Works s (s.setA v) := .ofCpu s _ rfl rfl rfl rfl
theorem works_setX (s : State) (v : Byte) : Works s (s.setX v) := .ofCpu s _ rfl rfl rfl rfl
theorem works_setY (s : State) (v : Byte) : Works s (s.setY v) := .ofCpu s _ rfl rfl rfl rfl
theorem works_setS (s : State) (v : Byte) : Works s (s.setS v) := .ofCpu s _ rfl rfl rfl rfl
theorem works_setPc (s : State) (w : Addr) : Works s (s.setPc w) := .ofCpu s _ rfl rfl rfl rfl
theorem works_setLatent (s : State) (a : Addr) (m c : Bool) : Works s (s.setLatent a m c) := .ofCpu s _ rfl rfl rfl rfl
theorem works_setCycles (s : State) (n : Nat) : Works s (s.setCycles n) := .ofCpu s _ rfl rfl rfl rfl

theorem works_setP (s : State) (p : Byte) (hb : flagOf p .b = flagOf s.cpu.p .b) (hu : flagOf p .u = flagOf s.cpu.p .u) :
    Works s (s.setP p) := .ofCpu s _ hb hu rfl rfl

theorem works_setFlag (s : State) (f : Flag) (b : Bool) (hb : f ≠ .b) (hu : f ≠ .u) : Works s (s.setFlag f b) := by
  apply works_setP <;> rw [flagOf_withFlag, if_neg] <;> exact fun e => by simp_all

theorem works_setZN (s : State) (v : Byte) : Works s (s.setZN v) := by
  apply works_setP <;> simp

theorem readRegister_position (c : Cart) (p : Ppu) (r : Nat) : (Ppu.readRegister c p r).2.position = p.position := by
  unfold Ppu.readRegister
  split <;> try rfl
  unfold Ppu.readData
  simp only
  split <;> rfl

theorem writeRegister_position (c : Cart) (p : Ppu) (r : Nat) (d : Byte) :
    (Ppu.writeRegister c p r d).2.position = p.position := by
  unfold Ppu.writeRegister
  split <;> try rfl
  · unfold Ppu.writeScroll; split <;> rfl
  · unfold Ppu.writeAddr; split <;> rfl
  · unfold Ppu.writeData ppuBusWrite
    simp only
    split
    · rfl
    · split <;> rfl

theorem memRead_position (s : State) (a : Addr) : (memRead s a).2.ppu.position = s.ppu.position := by
  unfold memRead
  split <;> first | rfl | exact readRegister_position _ _ _

theorem memWrite_position (s : State) (a : Addr) (v : Byte) : (memWrite s a v).ppu.position = s.ppu.position := by
  unfold memWrite
  split <;> first | rfl | exact writeRegister_position _ _ _ _

theorem works_memRead (s : State) (a : Addr) : Works s (memRead s a).2 := by
  refine ⟨fun m => ?_, memRead_port s a, by rw [memRead_cart_eq]; exact .refl _, by simp, by simp, memRead_position s a⟩
  refine ⟨by rw [memRead_cpu]; exact m.1, ?_, by rw [memRead_cart_eq]; exact m.2.2.1, by rw [memRead_wram_eq]; exact m.2.2.2⟩
  unfold memRead
  split
  · exact m.2.1
  · exact readRegister_inv _ m.2.1
  · exact m.2.1
  · exact m.2.1
  · exact m.2.1
  · exact m.2.1

theorem works_memWrite (s : State) (a : Addr) (v : Byte) : Works s (memWrite s a v) := by
  refine ⟨fun m => ?_, memWrite_port s a v, ?_, by simp, by simp, memWrite_position s a v⟩
  · unfold memWrite
    split
    · refine ⟨m.1, m.2.1, m.2.2.1, Memory.holds_write v m.2.2.2 ?_⟩
      exact Nat.mod_lt _ (by decide)
    · have := writeRegister_inv (a.toNat % 8) v m.2.2.1 m.2.1
      exact ⟨m.1, this.2, this.1, m.2.2.2⟩
    · exact m
    · refine ⟨⟨m.1.1, m.1.2.1, ?_, m.1.2.2.2⟩, m.2⟩
      show (if _ then 513 else 514) ≤ 514
      split <;> decide
    · exact ⟨m.1, m.2.1, cpuWrite_inv a v m.2.2.1, m.2.2.2⟩
    · exact m
  · unfold memWrite
    split
    · exact .refl _
    · exact writeRegister_sameRom _ _ _ _
    · exact .refl _
    · exact .refl _
    · exact cpuWrite_sameRom _ _ _
    · exact .refl _

theorem works_readPair (s : State) (l h : Addr) : Works s (readPair s l h).2 :=
  (works_memRead s l).trans (works_memRead _ h)

theorem works_push (s : State) (v : Byte) : Works s (push s v) := (works_memWrite s _ v).trans (works_setS _ _)

theorem works_pull (s : State) : Works s (pull s).2 := (works_setS s _).trans (works_memRead _ _)

theorem works_push16 (s : State) (w : Addr) : Works s (push16 s w) := (works_push s _).trans (works_push _ _)

theorem works_pull16 (s : State) : Works s (pull16 s).2 := (works_pull s).trans (works_pull _)

theorem works_enterInterrupt (s : State) (r : Addr) (p : Byte) (v : Addr) : Works s (enterInterrupt s r p v) := by
  unfold enterInterrupt
  exact ((((works_push16 s r).trans (works_push _ p)).trans (works_setFlag _ .i true (by decide) (by decide))).trans
    (works_readPair _ _ _)).trans (works_setPc _ _)

theorem works_returnFromInterrupt (s : State) : Works s (returnFromInterrupt s) := by
  unfold returnFromInterrupt
  refine (((works_pull s).trans (works_setP _ _ ?_ ?_)).trans (works_pull16 _)).trans (works_setPc _ _) <;> simp

theorem works_resolve (o : Operand) (s : State) : Works s (resolve o s) := by
  cases o <;> simp only [resolve, setIndexed, readZeroPagePointer_eq]
  case ind p => exact (works_readPair s _ _).trans (works_setLatent _ _ _ _)
  all_goals exact works_setLatent _ _ _ _

theorem works_load (o : Operand) (s : State) : Works s (load o s).2 := by
  cases o <;> first | exact .refl s | exact works_memRead s _

theorem works_store (o : Operand) (v : Byte) (s : State) : Works s (store o v s) := by
  cases o <;> first | exact works_setA s v | exact works_memWrite s _ v

theorem works_intoA (v : Byte) (s : State) : Works s (intoA v s) := (works_setA s v).trans (works_setZN _ v)

theorem works_adcByte (m : Byte) (s : State) : Works s (adcByte m s) := by
  unfold adcByte
  exact .ofCpu s _ (by simp [adcP]) (by simp [adcP]) rfl rfl

theorem works_sbcByte (m : Byte) (s : State) : Works s (sbcByte m s) := by
  unfold sbcByte
  exact .ofCpu s _ (by simp [sbcP]) (by simp [sbcP]) rfl rfl

theorem works_setCmp (s : State) (r m : Byte) : Works s (s.setP (cmpP s.cpu.p r m)) := by
  apply works_setP <;> simp [cmpP]

theorem works_setBit (s : State) (a m : Byte) : Works s (s.setP (bitP s.cpu.p a m)) := by
  apply works_setP <;> simp [bitP]

theorem works_setShift (s : State) (c : Bool) (r : Byte) : Works s (s.setP (shiftP s.cpu.p c r)) := by
  apply works_setP <;> simp [shiftP]

theorem works_setC (s : State) (b : Bool) : Works s (s.setFlag .c b) := works_setFlag s .c b (by decide) (by decide)

/-- Every mnemonic works. -/
theorem works_performOf (m : Mnemonic) (o : Operand) (s : State) : Works s (performOf m o s) := by
  have ld := works_load o s
  cases m <;> simp only [performOf]
  case brk => exact works_enterInterrupt s _ _ _
  case ora => exact ld.trans (works_intoA _ _)
  case undef => exact .refl s
  case slo => exact ((ld.trans (works_store o _ _)).trans (works_setC _ _)).trans (works_intoA _ _)
  case nopU => exact .refl s
  case asl => exact (ld.trans (works_store o _ _)).trans (works_setShift _ _ _)
  case php => exact works_push s _
  case anc => exact (ld.trans (works_intoA _ _)).trans (works_setC _ _)
  case bpl => exact .refl s
  case clc => exact works_setC s _
  case jsr => exact (works_push16 s _).trans (works_setPc _ _)
  case and => exact ld.trans (works_intoA _ _)
  case rla => exact ((ld.trans (works_store o _ _)).trans (works_setC _ _)).trans (works_intoA _ _)
  case bit => exact ld.trans (works_setBit _ _ _)
  case rol => exact (ld.trans (works_store o _ _)).trans (works_setShift _ _ _)
  case plp => exact (works_pull s).trans (works_setP _ _ (by simp) (by simp))
  case bmi => exact .refl s
  case sec => exact works_setC s _
  case rti => exact works_returnFromInterrupt s
  case eor => exact ld.trans (works_intoA _ _)
  case sre => exact ((ld.trans (works_store o _ _)).trans (works_setC _ _)).trans (works_intoA _ _)
  case lsr => exact (ld.trans (works_store o _ _)).trans (works_setShift _ _ _)
  case pha => exact works_push s _
  case alr => exact (ld.trans (works_setC _ _)).trans (works_intoA _ _)
  case jmp => exact works_setPc s _
  case bvc => exact .refl s
  case cli => exact works_setFlag s .i false (by decide) (by decide)
  case rts => exact (works_pull16 s).trans (works_setPc _ _)
  case adc => exact ld.trans (works_adcByte _ _)
  case rra => exact ((ld.trans (works_store o _ _)).trans (works_setC _ _)).trans (works_adcByte _ _)
  case ror => exact (ld.trans (works_store o _ _)).trans (works_setShift _ _ _)
  case pla => exact ((works_pull s).trans (works_setA _ _)).trans (works_setZN _ _)
  case bvs => exact .refl s
  case sei => exact works_setFlag s .i true (by decide) (by decide)
  case sta => exact works_store o _ s
  case sax => exact works_store o _ s
  case sty => exact works_store o _ s
  case stx => exact works_store o _ s
  case dey => exact (works_setY s _).trans (works_setZN _ _)
  case txa => exact (works_setA s _).trans (works_setZN _ _)
  case bcc => exact .refl s
  case tya => exact (works_setA s _).trans (works_setZN _ _)
  case txs => exact works_setS s _
  case ldy => exact (ld.trans (works_setY _ _)).trans (works_setZN _ _)
  case lda => exact (ld.trans (works_setA _ _)).trans (works_setZN _ _)
  case ldx => exact (ld.trans (works_setX _ _)).trans (works_setZN _ _)
  case lax => exact (ld.trans (works_intoA _ _)).trans (works_setX _ _)
  case tay => exact (works_setY s _).trans (works_setZN _ _)
  case tax => exact (works_setX s _).trans (works_setZN _ _)
  case bcs => exact .refl s
  case clv => exact works_setFlag s .v false (by decide) (by decide)
  case tsx => exact (works_setX s _).trans (works_setZN _ _)
  case cpy => exact ld.trans (works_setCmp _ _ _)
  case cmp => exact ld.trans (works_setCmp _ _ _)
  case dcp => exact (ld.trans (works_store o _ _)).trans (works_setCmp _ _ _)
  case dec => exact (ld.trans (works_store o _ _)).trans (works_setZN _ _)
  case iny => exact (works_setY s _).trans (works_setZN _ _)
  case dex => exact (works_setX s _).trans (works_setZN _ _)
  case bne => exact .refl s
  case cld => exact works_setFlag s .d false (by decide) (by decide)
  case cpx => exact ld.trans (works_setCmp _ _ _)
  case sbc => exact ld.trans (works_sbcByte _ _)
  case isc => exact (ld.trans (works_store o _ _)).trans (works_sbcByte _ _)
  case inc => exact (ld.trans (works_store o _ _)).trans (works_setZN _ _)
  case inx => exact (works_setX s _).trans (works_setZN _ _)
  case nop => exact .refl s
  case sbcU => exact ld.trans (works_sbcByte _ _)
  case beq => exact .refl s
  case sed => exact works_setFlag s .d true (by decide) (by decide)

theorem works_charge (b : Nat) (c : Penalty) (e : Nat) (s : State) : Works s (charge b c e s) := works_setCycles s _

/-- Every instruction works. -/
theorem works_exec (i : Instr) (s : State) : Works s (execNext i s) := by
  by_cases h : i.info.penalty = .branch
  · obtain ⟨o, -, e⟩ := exec_branch i s h
    have e2 := (exec_next i s).symm.trans (e.trans (runBranch_eq _ _ _))
    injection e2 with e2
    rw [e2]
    split
    · exact ((works_resolve _ s).trans (works_setPc _ _)).trans (works_charge _ _ _ _)
    · exact (works_resolve _ s).trans (works_charge _ _ _ _)
  · have e2 := (exec_next i s).symm.trans (exec_run i s h)
    unfold run at e2
    injection e2 with e2
    rw [e2]
    exact ((works_resolve _ s).trans (works_performOf _ _ _)).trans (works_charge _ _ _ _)

/-- A small cycle count as a signed 16-bit counter (10 R29). -/
theorem ofNat16_range {n : Nat} (h1 : 1 ≤ n) (h8 : n ≤ 8) :
    1 ≤ (BitVec.ofNat 16 n).toInt ∧ (BitVec.ofNat 16 n).toInt ≤ 8 := by
  interval_cases n <;> decide

/-- What an instruction is charged is between 1 and 8 cycles (10 R29). -/
theorem exec_cycles (i : Instr) (s : State) :
    1 ≤ (execNext i s).cpu.cyclesUntilNext.toInt ∧ (execNext i s).cpu.cyclesUntilNext.toInt ≤ 8 := by
  by_cases h : i.info.penalty = .branch
  · obtain ⟨o, -, e⟩ := exec_branch i s h
    have e2 := (exec_next i s).symm.trans (e.trans (runBranch_eq _ _ _))
    injection e2 with e2
    rw [e2]
    split
    · simp only [charge, State.setCycles_cpu, pagePenalty]
      split <;> decide
    · simp [charge, pagePenalty]
  · have e2 := (exec_next i s).symm.trans (exec_run i s h)
    unfold run at e2
    injection e2 with e2
    rw [e2]
    have hb : 1 ≤ i.info.base ∧ i.info.base ≤ 8 ∧ (i.info.penalty = .page → i.info.base ≤ 7) := by
      cases i with
      | undef op => cases op <;> decide
      | _ => dsimp only [Instr.info, Instr.opcode]; decide
    simp only [charge, State.setCycles_cpu]
    generalize performOf _ _ _ = t
    revert hb
    cases hp : i.info.penalty <;> simp only [pagePenalty] <;> intro hb
    · exact ofNat16_range (by omega) (by omega)
    · have := hb.2.2 trivial
      split <;> exact ofNat16_range (by omega) (by omega)
    · exact ofNat16_range (by omega) (by omega)

end Sys2Proof.Machine
end

