-- ==== Sys2Proof/Laws/PerInstr.lean ====
section
/-! SUPPORT. The family Encoding, instruction by instruction: the table's mode is the operand's, and the decoder's map
gives the instruction back from its opcode and operand bytes (30 R140, R141, R143, R146). -/

namespace Sys2Proof.Laws.Encoding

/-- What the encoding of an instruction says of it. -/
def Statement (i : Instr) : Prop :=
  i.info.mode = i.operand.mode ∧ decodeOp i.opcode (i.operand.bytes.getD 0 0) (i.operand.bytes.getD 1 0) = i

theorem brk : Statement .brk := by
  unfold Statement
  dsimp only [Instr.info, Instr.opcode, Instr.operand]
  exact ⟨rfl, rfl⟩

theorem oraIndX (a : Byte) : Statement (.oraIndX a) := by
  unfold Statement
  dsimp only [Instr.info, Instr.opcode, Instr.operand]
  exact ⟨rfl, rfl⟩

theorem undef (op : UndefOpcode) : Statement (.undef op) := by
  cases op <;> exact ⟨rfl, rfl⟩

theorem sloIndX (a : Byte) : Statement (.sloIndX a) := by
  unfold Statement
  dsimp only [Instr.info, Instr.opcode, Instr.operand]
  exact ⟨rfl, rfl⟩

theorem nopZp04 (a : Byte) : Statement (.nopZp04 a) := by
  unfold Statement
  dsimp only [Instr.info, Instr.opcode, Instr.operand]
  exact ⟨rfl, rfl⟩

theorem oraZp (a : Byte) : Statement (.oraZp a) := by
  unfold Statement
  dsimp only [Instr.info, Instr.opcode, Instr.operand]
  exact ⟨rfl, rfl⟩

theorem aslZp (a : Byte) : Statement (.aslZp a) := by
  unfold Statement
  dsimp only [Instr.info, Instr.opcode, Instr.operand]
  exact ⟨rfl, rfl⟩

theorem sloZp (a : Byte) : Statement (.sloZp a) := by
  unfold Statement
  dsimp only [Instr.info, Instr.opcode, Instr.operand]
  exact ⟨rfl, rfl⟩

theorem php : Statement .php := by
  unfold Statement
  dsimp only [Instr.info, Instr.opcode, Instr.operand]
  exact ⟨rfl, rfl⟩

theorem oraImm (v : Byte) : Statement (.oraImm v) := by
  unfold Statement
  dsimp only [Instr.info, Instr.opcode, Instr.operand]
  exact ⟨rfl, rfl⟩

theorem aslAcc : Statement .aslAcc := by
  unfold Statement
  dsimp only [Instr.info, Instr.opcode, Instr.operand]
  exact ⟨rfl, rfl⟩

theorem ancImm0B (v : Byte) : Statement (.ancImm0B v) := by
  unfold Statement
  dsimp only [Instr.info, Instr.opcode, Instr.operand]
  exact ⟨rfl, rfl⟩

theorem nopAbs0C (w : Addr) : Statement (.nopAbs0C w) := by
  unfold Statement
  dsimp only [Instr.info, Instr.opcode, Instr.operand]
  exact ⟨rfl, congrArg Instr.nopAbs0C (w16_hi_lo w)⟩

theorem oraAbs (w : Addr) : Statement (.oraAbs w) := by
  unfold Statement
  dsimp only [Instr.info, Instr.opcode, Instr.operand]
  exact ⟨rfl, congrArg Instr.oraAbs (w16_hi_lo w)⟩

theorem aslAbs (w : Addr) : Statement (.aslAbs w) := by
  unfold Statement
  dsimp only [Instr.info, Instr.opcode, Instr.operand]
  exact ⟨rfl, congrArg Instr.aslAbs (w16_hi_lo w)⟩

theorem sloAbs (w : Addr) : Statement (.sloAbs w) := by
  unfold Statement
  dsimp only [Instr.info, Instr.opcode, Instr.operand]
  exact ⟨rfl, congrArg Instr.sloAbs (w16_hi_lo w)⟩

theorem bpl (o : Byte) : Statement (.bpl o) := by
  unfold Statement
  dsimp only [Instr.info, Instr.opcode, Instr.operand]
  exact ⟨rfl, rfl⟩

theorem oraIndY (a : Byte) : Statement (.oraIndY a) := by
  unfold Statement
  dsimp only [Instr.info, Instr.opcode, Instr.operand]
  exact ⟨rfl, rfl⟩

theorem sloIndY (a : Byte) : Statement (.sloIndY a) := by
  unfold Statement
  dsimp only [Instr.info, Instr.opcode, Instr.operand]
  exact ⟨rfl, rfl⟩

theorem nopZpX14 (a : Byte) : Statement (.nopZpX14 a) := by
  unfold Statement
  dsimp only [Instr.info, Instr.opcode, Instr.operand]
  exact ⟨rfl, rfl⟩

theorem oraZpX (a : Byte) : Statement (.oraZpX a) := by
  unfold Statement
  dsimp only [Instr.info, Instr.opcode, Instr.operand]
  exact ⟨rfl, rfl⟩

theorem aslZpX (a : Byte) : Statement (.aslZpX a) := by
  unfold Statement
  dsimp only [Instr.info, Instr.opcode, Instr.operand]
  exact ⟨rfl, rfl⟩

theorem sloZpX (a : Byte) : Statement (.sloZpX a) := by
  unfold Statement
  dsimp only [Instr.info, Instr.opcode, Instr.operand]
  exact ⟨rfl, rfl⟩

theorem clc : Statement .clc := by
  unfold Statement
  dsimp only [Instr.info, Instr.opcode, Instr.operand]
  exact ⟨rfl, rfl⟩

theorem oraAbsY (w : Addr) : Statement (.oraAbsY w) := by
  unfold Statement
  dsimp only [Instr.info, Instr.opcode, Instr.operand]
  exact ⟨rfl, congrArg Instr.oraAbsY (w16_hi_lo w)⟩

theorem nopImp1A : Statement .nopImp1A := by
  unfold Statement
  dsimp only [Instr.info, Instr.opcode, Instr.operand]
  exact ⟨rfl, rfl⟩

theorem sloAbsY (w : Addr) : Statement (.sloAbsY w) := by
  unfold Statement
  dsimp only [Instr.info, Instr.opcode, Instr.operand]
  exact ⟨rfl, congrArg Instr.sloAbsY (w16_hi_lo w)⟩

theorem nopAbsX1C (w : Addr) : Statement (.nopAbsX1C w) := by
  unfold Statement
  dsimp only [Instr.info, Instr.opcode, Instr.operand]
  exact ⟨rfl, congrArg Instr.nopAbsX1C (w16_hi_lo w)⟩

theorem oraAbsX (w : Addr) : Statement (.oraAbsX w) := by
  unfold Statement
  dsimp only [Instr.info, Instr.opcode, Instr.operand]
  exact ⟨rfl, congrArg Instr.oraAbsX (w16_hi_lo w)⟩

theorem aslAbsX (w : Addr) : Statement (.aslAbsX w) := by
  unfold Statement
  dsimp only [Instr.info, Instr.opcode, Instr.operand]
  exact ⟨rfl, congrArg Instr.aslAbsX (w16_hi_lo w)⟩

theorem sloAbsX (w : Addr) : Statement (.sloAbsX w) := by
  unfold Statement
  dsimp only [Instr.info, Instr.opcode, Instr.operand]
  exact ⟨rfl, congrArg Instr.sloAbsX (w16_hi_lo w)⟩

theorem jsrAbs (w : Addr) : Statement (.jsrAbs w) := by
  unfold Statement
  dsimp only [Instr.info, Instr.opcode, Instr.operand]
  exact ⟨rfl, congrArg Instr.jsrAbs (w16_hi_lo w)⟩

theorem andIndX (a : Byte) : Statement (.andIndX a) := by
  unfold Statement
  dsimp only [Instr.info, Instr.opcode, Instr.operand]
  exact ⟨rfl, rfl⟩

theorem rlaIndX (a : Byte) : Statement (.rlaIndX a) := by
  unfold Statement
  dsimp only [Instr.info, Instr.opcode, Instr.operand]
  exact ⟨rfl, rfl⟩

theorem bitZp (a : Byte) : Statement (.bitZp a) := by
  unfold Statement
  dsimp only [Instr.info, Instr.opcode, Instr.operand]
  exact ⟨rfl, rfl⟩

theorem andZp (a : Byte) : Statement (.andZp a) := by
  unfold Statement
  dsimp only [Instr.info, Instr.opcode, Instr.operand]
  exact ⟨rfl, rfl⟩

theorem rolZp (a : Byte) : Statement (.rolZp a) := by
  unfold Statement
  dsimp only [Instr.info, Instr.opcode, Instr.operand]
  exact ⟨rfl, rfl⟩

theorem rlaZp (a : Byte) : Statement (.rlaZp a) := by
  unfold Statement
  dsimp only [Instr.info, Instr.opcode, Instr.operand]
  exact ⟨rfl, rfl⟩

theorem plp : Statement .plp := by
  unfold Statement
  dsimp only [Instr.info, Instr.opcode, Instr.operand]
  exact ⟨rfl, rfl⟩

theorem andImm (v : Byte) : Statement (.andImm v) := by
  unfold Statement
  dsimp only [Instr.info, Instr.opcode, Instr.operand]
  exact ⟨rfl, rfl⟩

theorem rolAcc : Statement .rolAcc := by
  unfold Statement
  dsimp only [Instr.info, Instr.opcode, Instr.operand]
  exact ⟨rfl, rfl⟩

theorem ancImm2B (v : Byte) : Statement (.ancImm2B v) := by
  unfold Statement
  dsimp only [Instr.info, Instr.opcode, Instr.operand]
  exact ⟨rfl, rfl⟩

theorem bitAbs (w : Addr) : Statement (.bitAbs w) := by
  unfold Statement
  dsimp only [Instr.info, Instr.opcode, Instr.operand]
  exact ⟨rfl, congrArg Instr.bitAbs (w16_hi_lo w)⟩

theorem andAbs (w : Addr) : Statement (.andAbs w) := by
  unfold Statement
  dsimp only [Instr.info, Instr.opcode, Instr.operand]
  exact ⟨rfl, congrArg Instr.andAbs (w16_hi_lo w)⟩

theorem rolAbs (w : Addr) : Statement (.rolAbs w) := by
  unfold Statement
  dsimp only [Instr.info, Instr.opcode, Instr.operand]
  exact ⟨rfl, congrArg Instr.rolAbs (w16_hi_lo w)⟩

theorem rlaAbs (w : Addr) : Statement (.rlaAbs w) := by
  unfold Statement
  dsimp only [Instr.info, Instr.opcode, Instr.operand]
  exact ⟨rfl, congrArg Instr.rlaAbs (w16_hi_lo w)⟩

theorem bmi (o : Byte) : Statement (.bmi o) := by
  unfold Statement
  dsimp only [Instr.info, Instr.opcode, Instr.operand]
  exact ⟨rfl, rfl⟩

theorem andIndY (a : Byte) : Statement (.andIndY a) := by
  unfold Statement
  dsimp only [Instr.info, Instr.opcode, Instr.operand]
  exact ⟨rfl, rfl⟩

theorem rlaIndY (a : Byte) : Statement (.rlaIndY a) := by
  unfold Statement
  dsimp only [Instr.info, Instr.opcode, Instr.operand]
  exact ⟨rfl, rfl⟩

theorem nopZpX34 (a : Byte) : Statement (.nopZpX34 a) := by
  unfold Statement
  dsimp only [Instr.info, Instr.opcode, Instr.operand]
  exact ⟨rfl, rfl⟩

theorem andZpX (a : Byte) : Statement (.andZpX a) := by
  unfold Statement
  dsimp only [Instr.info, Instr.opcode, Instr.operand]
  exact ⟨rfl, rfl⟩

theorem rolZpX (a : Byte) : Statement (.rolZpX a) := by
  unfold Statement
  dsimp only [Instr.info, Instr.opcode, Instr.operand]
  exact ⟨rfl, rfl⟩

theorem rlaZpX (a : Byte) : Statement (.rlaZpX a) := by
  unfold Statement
  dsimp only [Instr.info, Instr.opcode, Instr.operand]
  exact ⟨rfl, rfl⟩

theorem sec : Statement .sec := by
  unfold Statement
  dsimp only [Instr.info, Instr.opcode, Instr.operand]
  exact ⟨rfl, rfl⟩

theorem andAbsY (w : Addr) : Statement (.andAbsY w) := by
  unfold Statement
  dsimp only [Instr.info, Instr.opcode, Instr.operand]
  exact ⟨rfl, congrArg Instr.andAbsY (w16_hi_lo w)⟩

theorem nopImp3A : Statement .nopImp3A := by
  unfold Statement
  dsimp only [Instr.info, Instr.opcode, Instr.operand]
  exact ⟨rfl, rfl⟩

theorem rlaAbsY (w : Addr) : Statement (.rlaAbsY w) := by
  unfold Statement
  dsimp only [Instr.info, Instr.opcode, Instr.operand]
  exact ⟨rfl, congrArg Instr.rlaAbsY (w16_hi_lo w)⟩

theorem nopAbsX3C (w : Addr) : Statement (.nopAbsX3C w) := by
  unfold Statement
  dsimp only [Instr.info, Instr.opcode, Instr.operand]
  exact ⟨rfl, congrArg Instr.nopAbsX3C (w16_hi_lo w)⟩

theorem andAbsX (w : Addr) : Statement (.andAbsX w) := by
  unfold Statement
  dsimp only [Instr.info, Instr.opcode, Instr.operand]
  exact ⟨rfl, congrArg Instr.andAbsX (w16_hi_lo w)⟩

theorem rolAbsX (w : Addr) : Statement (.rolAbsX w) := by
  unfold Statement
  dsimp only [Instr.info, Instr.opcode, Instr.operand]
  exact ⟨rfl, congrArg Instr.rolAbsX (w16_hi_lo w)⟩

theorem rlaAbsX (w : Addr) : Statement (.rlaAbsX w) := by
  unfold Statement
  dsimp only [Instr.info, Instr.opcode, Instr.operand]
  exact ⟨rfl, congrArg Instr.rlaAbsX (w16_hi_lo w)⟩

theorem rti : Statement .rti := by
  unfold Statement
  dsimp only [Instr.info, Instr.opcode, Instr.operand]
  exact ⟨rfl, rfl⟩

theorem eorIndX (a : Byte) : Statement (.eorIndX a) := by
  unfold Statement
  dsimp only [Instr.info, Instr.opcode, Instr.operand]
  exact ⟨rfl, rfl⟩

theorem sreIndX (a : Byte) : Statement (.sreIndX a) := by
  unfold Statement
  dsimp only [Instr.info, Instr.opcode, Instr.operand]
  exact ⟨rfl, rfl⟩

theorem nopZp44 (a : Byte) : Statement (.nopZp44 a) := by
  unfold Statement
  dsimp only [Instr.info, Instr.opcode, Instr.operand]
  exact ⟨rfl, rfl⟩

theorem eorZp (a : Byte) : Statement (.eorZp a) := by
  unfold Statement
  dsimp only [Instr.info, Instr.opcode, Instr.operand]
  exact ⟨rfl, rfl⟩

theorem lsrZp (a : Byte) : Statement (.lsrZp a) := by
  unfold Statement
  dsimp only [Instr.info, Instr.opcode, Instr.operand]
  exact ⟨rfl, rfl⟩

theorem sreZp (a : Byte) : Statement (.sreZp a) := by
  unfold Statement
  dsimp only [Instr.info, Instr.opcode, Instr.operand]
  exact ⟨rfl, rfl⟩

theorem pha : Statement .pha := by
  unfold Statement
  dsimp only [Instr.info, Instr.opcode, Instr.operand]
  exact ⟨rfl, rfl⟩

theorem eorImm (v : Byte) : Statement (.eorImm v) := by
  unfold Statement
  dsimp only [Instr.info, Instr.opcode, Instr.operand]
  exact ⟨rfl, rfl⟩

theorem lsrAcc : Statement .lsrAcc := by
  unfold Statement
  dsimp only [Instr.info, Instr.opcode, Instr.operand]
  exact ⟨rfl, rfl⟩

theorem alrImm (v : Byte) : Statement (.alrImm v) := by
  unfold Statement
  dsimp only [Instr.info, Instr.opcode, Instr.operand]
  exact ⟨rfl, rfl⟩

theorem jmpAbs (w : Addr) : Statement (.jmpAbs w) := by
  unfold Statement
  dsimp only [Instr.info, Instr.opcode, Instr.operand]
  exact ⟨rfl, congrArg Instr.jmpAbs (w16_hi_lo w)⟩

theorem eorAbs (w : Addr) : Statement (.eorAbs w) := by
  unfold Statement
  dsimp only [Instr.info, Instr.opcode, Instr.operand]
  exact ⟨rfl, congrArg Instr.eorAbs (w16_hi_lo w)⟩

theorem lsrAbs (w : Addr) : Statement (.lsrAbs w) := by
  unfold Statement
  dsimp only [Instr.info, Instr.opcode, Instr.operand]
  exact ⟨rfl, congrArg Instr.lsrAbs (w16_hi_lo w)⟩

theorem sreAbs (w : Addr) : Statement (.sreAbs w) := by
  unfold Statement
  dsimp only [Instr.info, Instr.opcode, Instr.operand]
  exact ⟨rfl, congrArg Instr.sreAbs (w16_hi_lo w)⟩

theorem bvc (o : Byte) : Statement (.bvc o) := by
  unfold Statement
  dsimp only [Instr.info, Instr.opcode, Instr.operand]
  exact ⟨rfl, rfl⟩

theorem eorIndY (a : Byte) : Statement (.eorIndY a) := by
  unfold Statement
  dsimp only [Instr.info, Instr.opcode, Instr.operand]
  exact ⟨rfl, rfl⟩

theorem sreIndY (a : Byte) : Statement (.sreIndY a) := by
  unfold Statement
  dsimp only [Instr.info, Instr.opcode, Instr.operand]
  exact ⟨rfl, rfl⟩

theorem nopZpX54 (a : Byte) : Statement (.nopZpX54 a) := by
  unfold Statement
  dsimp only [Instr.info, Instr.opcode, Instr.operand]
  exact ⟨rfl, rfl⟩

theorem eorZpX (a : Byte) : Statement (.eorZpX a) := by
  unfold Statement
  dsimp only [Instr.info, Instr.opcode, Instr.operand]
  exact ⟨rfl, rfl⟩

theorem lsrZpX (a : Byte) : Statement (.lsrZpX a) := by
  unfold Statement
  dsimp only [Instr.info, Instr.opcode, Instr.operand]
  exact ⟨rfl, rfl⟩

theorem sreZpX (a : Byte) : Statement (.sreZpX a) := by
  unfold Statement
  dsimp only [Instr.info, Instr.opcode, Instr.operand]
  exact ⟨rfl, rfl⟩

theorem cli : Statement .cli := by
  unfold Statement
  dsimp only [Instr.info, Instr.opcode, Instr.operand]
  exact ⟨rfl, rfl⟩

theorem eorAbsY (w : Addr) : Statement (.eorAbsY w) := by
  unfold Statement
  dsimp only [Instr.info, Instr.opcode, Instr.operand]
  exact ⟨rfl, congrArg Instr.eorAbsY (w16_hi_lo w)⟩

theorem nopImp5A : Statement .nopImp5A := by
  unfold Statement
  dsimp only [Instr.info, Instr.opcode, Instr.operand]
  exact ⟨rfl, rfl⟩

theorem sreAbsY (w : Addr) : Statement (.sreAbsY w) := by
  unfold Statement
  dsimp only [Instr.info, Instr.opcode, Instr.operand]
  exact ⟨rfl, congrArg Instr.sreAbsY (w16_hi_lo w)⟩

theorem nopAbsX5C (w : Addr) : Statement (.nopAbsX5C w) := by
  unfold Statement
  dsimp only [Instr.info, Instr.opcode, Instr.operand]
  exact ⟨rfl, congrArg Instr.nopAbsX5C (w16_hi_lo w)⟩

theorem eorAbsX (w : Addr) : Statement (.eorAbsX w) := by
  unfold Statement
  dsimp only [Instr.info, Instr.opcode, Instr.operand]
  exact ⟨rfl, congrArg Instr.eorAbsX (w16_hi_lo w)⟩

theorem lsrAbsX (w : Addr) : Statement (.lsrAbsX w) := by
  unfold Statement
  dsimp only [Instr.info, Instr.opcode, Instr.operand]
  exact ⟨rfl, congrArg Instr.lsrAbsX (w16_hi_lo w)⟩

theorem sreAbsX (w : Addr) : Statement (.sreAbsX w) := by
  unfold Statement
  dsimp only [Instr.info, Instr.opcode, Instr.operand]
  exact ⟨rfl, congrArg Instr.sreAbsX (w16_hi_lo w)⟩

theorem rts : Statement .rts := by
  unfold Statement
  dsimp only [Instr.info, Instr.opcode, Instr.operand]
  exact ⟨rfl, rfl⟩

theorem adcIndX (a : Byte) : Statement (.adcIndX a) := by
  unfold Statement
  dsimp only [Instr.info, Instr.opcode, Instr.operand]
  exact ⟨rfl, rfl⟩

theorem rraIndX (a : Byte) : Statement (.rraIndX a) := by
  unfold Statement
  dsimp only [Instr.info, Instr.opcode, Instr.operand]
  exact ⟨rfl, rfl⟩

theorem nopZp64 (a : Byte) : Statement (.nopZp64 a) := by
  unfold Statement
  dsimp only [Instr.info, Instr.opcode, Instr.operand]
  exact ⟨rfl, rfl⟩

theorem adcZp (a : Byte) : Statement (.adcZp a) := by
  unfold Statement
  dsimp only [Instr.info, Instr.opcode, Instr.operand]
  exact ⟨rfl, rfl⟩

theorem rorZp (a : Byte) : Statement (.rorZp a) := by
  unfold Statement
  dsimp only [Instr.info, Instr.opcode, Instr.operand]
  exact ⟨rfl, rfl⟩

theorem rraZp (a : Byte) : Statement (.rraZp a) := by
  unfold Statement
  dsimp only [Instr.info, Instr.opcode, Instr.operand]
  exact ⟨rfl, rfl⟩

theorem pla : Statement .pla := by
  unfold Statement
  dsimp only [Instr.info, Instr.opcode, Instr.operand]
  exact ⟨rfl, rfl⟩

theorem adcImm (v : Byte) : Statement (.adcImm v) := by
  unfold Statement
  dsimp only [Instr.info, Instr.opcode, Instr.operand]
  exact ⟨rfl, rfl⟩

theorem rorAcc : Statement .rorAcc := by
  unfold Statement
  dsimp only [Instr.info, Instr.opcode, Instr.operand]
  exact ⟨rfl, rfl⟩

theorem jmpInd (w : Addr) : Statement (.jmpInd w) := by
  unfold Statement
  dsimp only [Instr.info, Instr.opcode, Instr.operand]
  exact ⟨rfl, congrArg Instr.jmpInd (w16_hi_lo w)⟩

theorem adcAbs (w : Addr) : Statement (.adcAbs w) := by
  unfold Statement
  dsimp only [Instr.info, Instr.opcode, Instr.operand]
  exact ⟨rfl, congrArg Instr.adcAbs (w16_hi_lo w)⟩

theorem rorAbs (w : Addr) : Statement (.rorAbs w) := by
  unfold Statement
  dsimp only [Instr.info, Instr.opcode, Instr.operand]
  exact ⟨rfl, congrArg Instr.rorAbs (w16_hi_lo w)⟩

theorem rraAbs (w : Addr) : Statement (.rraAbs w) := by
  unfold Statement
  dsimp only [Instr.info, Instr.opcode, Instr.operand]
  exact ⟨rfl, congrArg Instr.rraAbs (w16_hi_lo w)⟩

theorem bvs (o : Byte) : Statement (.bvs o) := by
  unfold Statement
  dsimp only [Instr.info, Instr.opcode, Instr.operand]
  exact ⟨rfl, rfl⟩

theorem adcIndY (a : Byte) : Statement (.adcIndY a) := by
  unfold Statement
  dsimp only [Instr.info, Instr.opcode, Instr.operand]
  exact ⟨rfl, rfl⟩

theorem rraIndY (a : Byte) : Statement (.rraIndY a) := by
  unfold Statement
  dsimp only [Instr.info, Instr.opcode, Instr.operand]
  exact ⟨rfl, rfl⟩

theorem nopZpX74 (a : Byte) : Statement (.nopZpX74 a) := by
  unfold Statement
  dsimp only [Instr.info, Instr.opcode, Instr.operand]
  exact ⟨rfl, rfl⟩

theorem adcZpX (a : Byte) : Statement (.adcZpX a) := by
  unfold Statement
  dsimp only [Instr.info, Instr.opcode, Instr.operand]
  exact ⟨rfl, rfl⟩

theorem rorZpX (a : Byte) : Statement (.rorZpX a) := by
  unfold Statement
  dsimp only [Instr.info, Instr.opcode, Instr.operand]
  exact ⟨rfl, rfl⟩

theorem rraZpX (a : Byte) : Statement (.rraZpX a) := by
  unfold Statement
  dsimp only [Instr.info, Instr.opcode, Instr.operand]
  exact ⟨rfl, rfl⟩

theorem sei : Statement .sei := by
  unfold Statement
  dsimp only [Instr.info, Instr.opcode, Instr.operand]
  exact ⟨rfl, rfl⟩

theorem adcAbsY (w : Addr) : Statement (.adcAbsY w) := by
  unfold Statement
  dsimp only [Instr.info, Instr.opcode, Instr.operand]
  exact ⟨rfl, congrArg Instr.adcAbsY (w16_hi_lo w)⟩

theorem nopImp7A : Statement .nopImp7A := by
  unfold Statement
  dsimp only [Instr.info, Instr.opcode, Instr.operand]
  exact ⟨rfl, rfl⟩

theorem rraAbsY (w : Addr) : Statement (.rraAbsY w) := by
  unfold Statement
  dsimp only [Instr.info, Instr.opcode, Instr.operand]
  exact ⟨rfl, congrArg Instr.rraAbsY (w16_hi_lo w)⟩

theorem nopAbsX7C (w : Addr) : Statement (.nopAbsX7C w) := by
  unfold Statement
  dsimp only [Instr.info, Instr.opcode, Instr.operand]
  exact ⟨rfl, congrArg Instr.nopAbsX7C (w16_hi_lo w)⟩

theorem adcAbsX (w : Addr) : Statement (.adcAbsX w) := by
  unfold Statement
  dsimp only [Instr.info, Instr.opcode, Instr.operand]
  exact ⟨rfl, congrArg Instr.adcAbsX (w16_hi_lo w)⟩

theorem rorAbsX (w : Addr) : Statement (.rorAbsX w) := by
  unfold Statement
  dsimp only [Instr.info, Instr.opcode, Instr.operand]
  exact ⟨rfl, congrArg Instr.rorAbsX (w16_hi_lo w)⟩

theorem rraAbsX (w : Addr) : Statement (.rraAbsX w) := by
  unfold Statement
  dsimp only [Instr.info, Instr.opcode, Instr.operand]
  exact ⟨rfl, congrArg Instr.rraAbsX (w16_hi_lo w)⟩

theorem nopImm80 (v : Byte) : Statement (.nopImm80 v) := by
  unfold Statement
  dsimp only [Instr.info, Instr.opcode, Instr.operand]
  exact ⟨rfl, rfl⟩

theorem staIndX (a : Byte) : Statement (.staIndX a) := by
  unfold Statement
  dsimp only [Instr.info, Instr.opcode, Instr.operand]
  exact ⟨rfl, rfl⟩

theorem nopImm82 (v : Byte) : Statement (.nopImm82 v) := by
  unfold Statement
  dsimp only [Instr.info, Instr.opcode, Instr.operand]
  exact ⟨rfl, rfl⟩

theorem saxIndX (a : Byte) : Statement (.saxIndX a) := by
  unfold Statement
  dsimp only [Instr.info, Instr.opcode, Instr.operand]
  exact ⟨rfl, rfl⟩

theorem styZp (a : Byte) : Statement (.styZp a) := by
  unfold Statement
  dsimp only [Instr.info, Instr.opcode, Instr.operand]
  exact ⟨rfl, rfl⟩

theorem staZp (a : Byte) : Statement (.staZp a) := by
  unfold Statement
  dsimp only [Instr.info, Instr.opcode, Instr.operand]
  exact ⟨rfl, rfl⟩

theorem stxZp (a : Byte) : Statement (.stxZp a) := by
  unfold Statement
  dsimp only [Instr.info, Instr.opcode, Instr.operand]
  exact ⟨rfl, rfl⟩

theorem saxZp (a : Byte) : Statement (.saxZp a) := by
  unfold Statement
  dsimp only [Instr.info, Instr.opcode, Instr.operand]
  exact ⟨rfl, rfl⟩

theorem dey : Statement .dey := by
  unfold Statement
  dsimp only [Instr.info, Instr.opcode, Instr.operand]
  exact ⟨rfl, rfl⟩

theorem nopImm89 (v : Byte) : Statement (.nopImm89 v) := by
  unfold Statement
  dsimp only [Instr.info, Instr.opcode, Instr.operand]
  exact ⟨rfl, rfl⟩

theorem txa : Statement .txa := by
  unfold Statement
  dsimp only [Instr.info, Instr.opcode, Instr.operand]
  exact ⟨rfl, rfl⟩

theorem styAbs (w : Addr) : Statement (.styAbs w) := by
  unfold Statement
  dsimp only [Instr.info, Instr.opcode, Instr.operand]
  exact ⟨rfl, congrArg Instr.styAbs (w16_hi_lo w)⟩

theorem staAbs (w : Addr) : Statement (.staAbs w) := by
  unfold Statement
  dsimp only [Instr.info, Instr.opcode, Instr.operand]
  exact ⟨rfl, congrArg Instr.staAbs (w16_hi_lo w)⟩

theorem stxAbs (w : Addr) : Statement (.stxAbs w) := by
  unfold Statement
  dsimp only [Instr.info, Instr.opcode, Instr.operand]
  exact ⟨rfl, congrArg Instr.stxAbs (w16_hi_lo w)⟩

theorem saxAbs (w : Addr) : Statement (.saxAbs w) := by
  unfold Statement
  dsimp only [Instr.info, Instr.opcode, Instr.operand]
  exact ⟨rfl, congrArg Instr.saxAbs (w16_hi_lo w)⟩

theorem bcc (o : Byte) : Statement (.bcc o) := by
  unfold Statement
  dsimp only [Instr.info, Instr.opcode, Instr.operand]
  exact ⟨rfl, rfl⟩

theorem staIndY (a : Byte) : Statement (.staIndY a) := by
  unfold Statement
  dsimp only [Instr.info, Instr.opcode, Instr.operand]
  exact ⟨rfl, rfl⟩

theorem styZpX (a : Byte) : Statement (.styZpX a) := by
  unfold Statement
  dsimp only [Instr.info, Instr.opcode, Instr.operand]
  exact ⟨rfl, rfl⟩

theorem staZpX (a : Byte) : Statement (.staZpX a) := by
  unfold Statement
  dsimp only [Instr.info, Instr.opcode, Instr.operand]
  exact ⟨rfl, rfl⟩

theorem stxZpY (a : Byte) : Statement (.stxZpY a) := by
  unfold Statement
  dsimp only [Instr.info, Instr.opcode, Instr.operand]
  exact ⟨rfl, rfl⟩

theorem saxZpY (a : Byte) : Statement (.saxZpY a) := by
  unfold Statement
  dsimp only [Instr.info, Instr.opcode, Instr.operand]
  exact ⟨rfl, rfl⟩

theorem tya : Statement .tya := by
  unfold Statement
  dsimp only [Instr.info, Instr.opcode, Instr.operand]
  exact ⟨rfl, rfl⟩

theorem staAbsY (w : Addr) : Statement (.staAbsY w) := by
  unfold Statement
  dsimp only [Instr.info, Instr.opcode, Instr.operand]
  exact ⟨rfl, congrArg Instr.staAbsY (w16_hi_lo w)⟩

theorem txs : Statement .txs := by
  unfold Statement
  dsimp only [Instr.info, Instr.opcode, Instr.operand]
  exact ⟨rfl, rfl⟩

theorem staAbsX (w : Addr) : Statement (.staAbsX w) := by
  unfold Statement
  dsimp only [Instr.info, Instr.opcode, Instr.operand]
  exact ⟨rfl, congrArg Instr.staAbsX (w16_hi_lo w)⟩

theorem ldyImm (v : Byte) : Statement (.ldyImm v) := by
  unfold Statement
  dsimp only [Instr.info, Instr.opcode, Instr.operand]
  exact ⟨rfl, rfl⟩

theorem ldaIndX (a : Byte) : Statement (.ldaIndX a) := by
  unfold Statement
  dsimp only [Instr.info, Instr.opcode, Instr.operand]
  exact ⟨rfl, rfl⟩

theorem ldxImm (v : Byte) : Statement (.ldxImm v) := by
  unfold Statement
  dsimp only [Instr.info, Instr.opcode, Instr.operand]
  exact ⟨rfl, rfl⟩

theorem laxIndX (a : Byte) : Statement (.laxIndX a) := by
  unfold Statement
  dsimp only [Instr.info, Instr.opcode, Instr.operand]
  exact ⟨rfl, rfl⟩

theorem ldyZp (a : Byte) : Statement (.ldyZp a) := by
  unfold Statement
  dsimp only [Instr.info, Instr.opcode, Instr.operand]
  exact ⟨rfl, rfl⟩

theorem ldaZp (a : Byte) : Statement (.ldaZp a) := by
  unfold Statement
  dsimp only [Instr.info, Instr.opcode, Instr.operand]
  exact ⟨rfl, rfl⟩

theorem ldxZp (a : Byte) : Statement (.ldxZp a) := by
  unfold Statement
  dsimp only [Instr.info, Instr.opcode, Instr.operand]
  exact ⟨rfl, rfl⟩

theorem laxZp (a : Byte) : Statement (.laxZp a) := by
  unfold Statement
  dsimp only [Instr.info, Instr.opcode, Instr.operand]
  exact ⟨rfl, rfl⟩

theorem tay : Statement .tay := by
  unfold Statement
  dsimp only [Instr.info, Instr.opcode, Instr.operand]
  exact ⟨rfl, rfl⟩

theorem ldaImm (v : Byte) : Statement (.ldaImm v) := by
  unfold Statement
  dsimp only [Instr.info, Instr.opcode, Instr.operand]
  exact ⟨rfl, rfl⟩

theorem tax : Statement .tax := by
  unfold Statement
  dsimp only [Instr.info, Instr.opcode, Instr.operand]
  exact ⟨rfl, rfl⟩

theorem ldyAbs (w : Addr) : Statement (.ldyAbs w) := by
  unfold Statement
  dsimp only [Instr.info, Instr.opcode, Instr.operand]
  exact ⟨rfl, congrArg Instr.ldyAbs (w16_hi_lo w)⟩

theorem ldaAbs (w : Addr) : Statement (.ldaAbs w) := by
  unfold Statement
  dsimp only [Instr.info, Instr.opcode, Instr.operand]
  exact ⟨rfl, congrArg Instr.ldaAbs (w16_hi_lo w)⟩

theorem ldxAbs (w : Addr) : Statement (.ldxAbs w) := by
  unfold Statement
  dsimp only [Instr.info, Instr.opcode, Instr.operand]
  exact ⟨rfl, congrArg Instr.ldxAbs (w16_hi_lo w)⟩

theorem laxAbs (w : Addr) : Statement (.laxAbs w) := by
  unfold Statement
  dsimp only [Instr.info, Instr.opcode, Instr.operand]
  exact ⟨rfl, congrArg Instr.laxAbs (w16_hi_lo w)⟩

theorem bcs (o : Byte) : Statement (.bcs o) := by
  unfold Statement
  dsimp only [Instr.info, Instr.opcode, Instr.operand]
  exact ⟨rfl, rfl⟩

theorem ldaIndY (a : Byte) : Statement (.ldaIndY a) := by
  unfold Statement
  dsimp only [Instr.info, Instr.opcode, Instr.operand]
  exact ⟨rfl, rfl⟩

theorem laxIndY (a : Byte) : Statement (.laxIndY a) := by
  unfold Statement
  dsimp only [Instr.info, Instr.opcode, Instr.operand]
  exact ⟨rfl, rfl⟩

theorem ldyZpX (a : Byte) : Statement (.ldyZpX a) := by
  unfold Statement
  dsimp only [Instr.info, Instr.opcode, Instr.operand]
  exact ⟨rfl, rfl⟩

theorem ldaZpX (a : Byte) : Statement (.ldaZpX a) := by
  unfold Statement
  dsimp only [Instr.info, Instr.opcode, Instr.operand]
  exact ⟨rfl, rfl⟩

theorem ldxZpY (a : Byte) : Statement (.ldxZpY a) := by
  unfold Statement
  dsimp only [Instr.info, Instr.opcode, Instr.operand]
  exact ⟨rfl, rfl⟩

theorem laxZpY (a : Byte) : Statement (.laxZpY a) := by
  unfold Statement
  dsimp only [Instr.info, Instr.opcode, Instr.operand]
  exact ⟨rfl, rfl⟩

theorem clv : Statement .clv := by
  unfold Statement
  dsimp only [Instr.info, Instr.opcode, Instr.operand]
  exact ⟨rfl, rfl⟩

theorem ldaAbsY (w : Addr) : Statement (.ldaAbsY w) := by
  unfold Statement
  dsimp only [Instr.info, Instr.opcode, Instr.operand]
  exact ⟨rfl, congrArg Instr.ldaAbsY (w16_hi_lo w)⟩

theorem tsx : Statement .tsx := by
  unfold Statement
  dsimp only [Instr.info, Instr.opcode, Instr.operand]
  exact ⟨rfl, rfl⟩

theorem ldyAbsX (w : Addr) : Statement (.ldyAbsX w) := by
  unfold Statement
  dsimp only [Instr.info, Instr.opcode, Instr.operand]
  exact ⟨rfl, congrArg Instr.ldyAbsX (w16_hi_lo w)⟩

theorem ldaAbsX (w : Addr) : Statement (.ldaAbsX w) := by
  unfold Statement
  dsimp only [Instr.info, Instr.opcode, Instr.operand]
  exact ⟨rfl, congrArg Instr.ldaAbsX (w16_hi_lo w)⟩

theorem ldxAbsY (w : Addr) : Statement (.ldxAbsY w) := by
  unfold Statement
  dsimp only [Instr.info, Instr.opcode, Instr.operand]
  exact ⟨rfl, congrArg Instr.ldxAbsY (w16_hi_lo w)⟩

theorem laxAbsY (w : Addr) : Statement (.laxAbsY w) := by
  unfold Statement
  dsimp only [Instr.info, Instr.opcode, Instr.operand]
  exact ⟨rfl, congrArg Instr.laxAbsY (w16_hi_lo w)⟩

theorem cpyImm (v : Byte) : Statement (.cpyImm v) := by
  unfold Statement
  dsimp only [Instr.info, Instr.opcode, Instr.operand]
  exact ⟨rfl, rfl⟩

theorem cmpIndX (a : Byte) : Statement (.cmpIndX a) := by
  unfold Statement
  dsimp only [Instr.info, Instr.opcode, Instr.operand]
  exact ⟨rfl, rfl⟩

theorem nopImmC2 (v : Byte) : Statement (.nopImmC2 v) := by
  unfold Statement
  dsimp only [Instr.info, Instr.opcode, Instr.operand]
  exact ⟨rfl, rfl⟩

theorem dcpIndX (a : Byte) : Statement (.dcpIndX a) := by
  unfold Statement
  dsimp only [Instr.info, Instr.opcode, Instr.operand]
  exact ⟨rfl, rfl⟩

theorem cpyZp (a : Byte) : Statement (.cpyZp a) := by
  unfold Statement
  dsimp only [Instr.info, Instr.opcode, Instr.operand]
  exact ⟨rfl, rfl⟩

theorem cmpZp (a : Byte) : Statement (.cmpZp a) := by
  unfold Statement
  dsimp only [Instr.info, Instr.opcode, Instr.operand]
  exact ⟨rfl, rfl⟩

theorem decZp (a : Byte) : Statement (.decZp a) := by
  unfold Statement
  dsimp only [Instr.info, Instr.opcode, Instr.operand]
  exact ⟨rfl, rfl⟩

theorem dcpZp (a : Byte) : Statement (.dcpZp a) := by
  unfold Statement
  dsimp only [Instr.info, Instr.opcode, Instr.operand]
  exact ⟨rfl, rfl⟩

theorem iny : Statement .iny := by
  unfold Statement
  dsimp only [Instr.info, Instr.opcode, Instr.operand]
  exact ⟨rfl, rfl⟩

theorem cmpImm (v : Byte) : Statement (.cmpImm v) := by
  unfold Statement
  dsimp only [Instr.info, Instr.opcode, Instr.operand]
  exact ⟨rfl, rfl⟩

theorem dex : Statement .dex := by
  unfold Statement
  dsimp only [Instr.info, Instr.opcode, Instr.operand]
  exact ⟨rfl, rfl⟩

theorem cpyAbs (w : Addr) : Statement (.cpyAbs w) := by
  unfold Statement
  dsimp only [Instr.info, Instr.opcode, Instr.operand]
  exact ⟨rfl, congrArg Instr.cpyAbs (w16_hi_lo w)⟩

theorem cmpAbs (w : Addr) : Statement (.cmpAbs w) := by
  unfold Statement
  dsimp only [Instr.info, Instr.opcode, Instr.operand]
  exact ⟨rfl, congrArg Instr.cmpAbs (w16_hi_lo w)⟩

theorem decAbs (w : Addr) : Statement (.decAbs w) := by
  unfold Statement
  dsimp only [Instr.info, Instr.opcode, Instr.operand]
  exact ⟨rfl, congrArg Instr.decAbs (w16_hi_lo w)⟩

theorem dcpAbs (w : Addr) : Statement (.dcpAbs w) := by
  unfold Statement
  dsimp only [Instr.info, Instr.opcode, Instr.operand]
  exact ⟨rfl, congrArg Instr.dcpAbs (w16_hi_lo w)⟩

theorem bne (o : Byte) : Statement (.bne o) := by
  unfold Statement
  dsimp only [Instr.info, Instr.opcode, Instr.operand]
  exact ⟨rfl, rfl⟩

theorem cmpIndY (a : Byte) : Statement (.cmpIndY a) := by
  unfold Statement
  dsimp only [Instr.info, Instr.opcode, Instr.operand]
  exact ⟨rfl, rfl⟩

theorem dcpIndY (a : Byte) : Statement (.dcpIndY a) := by
  unfold Statement
  dsimp only [Instr.info, Instr.opcode, Instr.operand]
  exact ⟨rfl, rfl⟩

theorem nopZpXD4 (a : Byte) : Statement (.nopZpXD4 a) := by
  unfold Statement
  dsimp only [Instr.info, Instr.opcode, Instr.operand]
  exact ⟨rfl, rfl⟩

theorem cmpZpX (a : Byte) : Statement (.cmpZpX a) := by
  unfold Statement
  dsimp only [Instr.info, Instr.opcode, Instr.operand]
  exact ⟨rfl, rfl⟩

theorem decZpX (a : Byte) : Statement (.decZpX a) := by
  unfold Statement
  dsimp only [Instr.info, Instr.opcode, Instr.operand]
  exact ⟨rfl, rfl⟩

theorem dcpZpX (a : Byte) : Statement (.dcpZpX a) := by
  unfold Statement
  dsimp only [Instr.info, Instr.opcode, Instr.operand]
  exact ⟨rfl, rfl⟩

theorem cld : Statement .cld := by
  unfold Statement
  dsimp only [Instr.info, Instr.opcode, Instr.operand]
  exact ⟨rfl, rfl⟩

theorem cmpAbsY (w : Addr) : Statement (.cmpAbsY w) := by
  unfold Statement
  dsimp only [Instr.info, Instr.opcode, Instr.operand]
  exact ⟨rfl, congrArg Instr.cmpAbsY (w16_hi_lo w)⟩

theorem nopImpDA : Statement .nopImpDA := by
  unfold Statement
  dsimp only [Instr.info, Instr.opcode, Instr.operand]
  exact ⟨rfl, rfl⟩

theorem dcpAbsY (w : Addr) : Statement (.dcpAbsY w) := by
  unfold Statement
  dsimp only [Instr.info, Instr.opcode, Instr.operand]
  exact ⟨rfl, congrArg Instr.dcpAbsY (w16_hi_lo w)⟩

theorem nopAbsXDC (w : Addr) : Statement (.nopAbsXDC w) := by
  unfold Statement
  dsimp only [Instr.info, Instr.opcode, Instr.operand]
  exact ⟨rfl, congrArg Instr.nopAbsXDC (w16_hi_lo w)⟩

theorem cmpAbsX (w : Addr) : Statement (.cmpAbsX w) := by
  unfold Statement
  dsimp only [Instr.info, Instr.opcode, Instr.operand]
  exact ⟨rfl, congrArg Instr.cmpAbsX (w16_hi_lo w)⟩

theorem decAbsX (w : Addr) : Statement (.decAbsX w) := by
  unfold Statement
  dsimp only [Instr.info, Instr.opcode, Instr.operand]
  exact ⟨rfl, congrArg Instr.decAbsX (w16_hi_lo w)⟩

theorem dcpAbsX (w : Addr) : Statement (.dcpAbsX w) := by
  unfold Statement
  dsimp only [Instr.info, Instr.opcode, Instr.operand]
  exact ⟨rfl, congrArg Instr.dcpAbsX (w16_hi_lo w)⟩

theorem cpxImm (v : Byte) : Statement (.cpxImm v) := by
  unfold Statement
  dsimp only [Instr.info, Instr.opcode, Instr.operand]
  exact ⟨rfl, rfl⟩

theorem sbcIndX (a : Byte) : Statement (.sbcIndX a) := by
  unfold Statement
  dsimp only [Instr.info, Instr.opcode, Instr.operand]
  exact ⟨rfl, rfl⟩

theorem nopImmE2 (v : Byte) : Statement (.nopImmE2 v) := by
  unfold Statement
  dsimp only [Instr.info, Instr.opcode, Instr.operand]
  exact ⟨rfl, rfl⟩

theorem iscIndX (a : Byte) : Statement (.iscIndX a) := by
  unfold Statement
  dsimp only [Instr.info, Instr.opcode, Instr.operand]
  exact ⟨rfl, rfl⟩

theorem cpxZp (a : Byte) : Statement (.cpxZp a) := by
  unfold Statement
  dsimp only [Instr.info, Instr.opcode, Instr.operand]
  exact ⟨rfl, rfl⟩

theorem sbcZp (a : Byte) : Statement (.sbcZp a) := by
  unfold Statement
  dsimp only [Instr.info, Instr.opcode, Instr.operand]
  exact ⟨rfl, rfl⟩

theorem incZp (a : Byte) : Statement (.incZp a) := by
  unfold Statement
  dsimp only [Instr.info, Instr.opcode, Instr.operand]
  exact ⟨rfl, rfl⟩

theorem iscZp (a : Byte) : Statement (.iscZp a) := by
  unfold Statement
  dsimp only [Instr.info, Instr.opcode, Instr.operand]
  exact ⟨rfl, rfl⟩

theorem inx : Statement .inx := by
  unfold Statement
  dsimp only [Instr.info, Instr.opcode, Instr.operand]
  exact ⟨rfl, rfl⟩

theorem sbcImm (v : Byte) : Statement (.sbcImm v) := by
  unfold Statement
  dsimp only [Instr.info, Instr.opcode, Instr.operand]
  exact ⟨rfl, rfl⟩

theorem nop : Statement .nop := by
  unfold Statement
  dsimp only [Instr.info, Instr.opcode, Instr.operand]
  exact ⟨rfl, rfl⟩

theorem sbcImmEB (v : Byte) : Statement (.sbcImmEB v) := by
  unfold Statement
  dsimp only [Instr.info, Instr.opcode, Instr.operand]
  exact ⟨rfl, rfl⟩

theorem cpxAbs (w : Addr) : Statement (.cpxAbs w) := by
  unfold Statement
  dsimp only [Instr.info, Instr.opcode, Instr.operand]
  exact ⟨rfl, congrArg Instr.cpxAbs (w16_hi_lo w)⟩

theorem sbcAbs (w : Addr) : Statement (.sbcAbs w) := by
  unfold Statement
  dsimp only [Instr.info, Instr.opcode, Instr.operand]
  exact ⟨rfl, congrArg Instr.sbcAbs (w16_hi_lo w)⟩

theorem incAbs (w : Addr) : Statement (.incAbs w) := by
  unfold Statement
  dsimp only [Instr.info, Instr.opcode, Instr.operand]
  exact ⟨rfl, congrArg Instr.incAbs (w16_hi_lo w)⟩

theorem iscAbs (w : Addr) : Statement (.iscAbs w) := by
  unfold Statement
  dsimp only [Instr.info, Instr.opcode, Instr.operand]
  exact ⟨rfl, congrArg Instr.iscAbs (w16_hi_lo w)⟩

theorem beq (o : Byte) : Statement (.beq o) := by
  unfold Statement
  dsimp only [Instr.info, Instr.opcode, Instr.operand]
  exact ⟨rfl, rfl⟩

theorem sbcIndY (a : Byte) : Statement (.sbcIndY a) := by
  unfold Statement
  dsimp only [Instr.info, Instr.opcode, Instr.operand]
  exact ⟨rfl, rfl⟩

theorem iscIndY (a : Byte) : Statement (.iscIndY a) := by
  unfold Statement
  dsimp only [Instr.info, Instr.opcode, Instr.operand]
  exact ⟨rfl, rfl⟩

theorem nopZpXF4 (a : Byte) : Statement (.nopZpXF4 a) := by
  unfold Statement
  dsimp only [Instr.info, Instr.opcode, Instr.operand]
  exact ⟨rfl, rfl⟩

theorem sbcZpX (a : Byte) : Statement (.sbcZpX a) := by
  unfold Statement
  dsimp only [Instr.info, Instr.opcode, Instr.operand]
  exact ⟨rfl, rfl⟩

theorem incZpX (a : Byte) : Statement (.incZpX a) := by
  unfold Statement
  dsimp only [Instr.info, Instr.opcode, Instr.operand]
  exact ⟨rfl, rfl⟩

theorem iscZpX (a : Byte) : Statement (.iscZpX a) := by
  unfold Statement
  dsimp only [Instr.info, Instr.opcode, Instr.operand]
  exact ⟨rfl, rfl⟩

theorem sed : Statement .sed := by
  unfold Statement
  dsimp only [Instr.info, Instr.opcode, Instr.operand]
  exact ⟨rfl, rfl⟩

theorem sbcAbsY (w : Addr) : Statement (.sbcAbsY w) := by
  unfold Statement
  dsimp only [Instr.info, Instr.opcode, Instr.operand]
  exact ⟨rfl, congrArg Instr.sbcAbsY (w16_hi_lo w)⟩

theorem nopImpFA : Statement .nopImpFA := by
  unfold Statement
  dsimp only [Instr.info, Instr.opcode, Instr.operand]
  exact ⟨rfl, rfl⟩

theorem iscAbsY (w : Addr) : Statement (.iscAbsY w) := by
  unfold Statement
  dsimp only [Instr.info, Instr.opcode, Instr.operand]
  exact ⟨rfl, congrArg Instr.iscAbsY (w16_hi_lo w)⟩

theorem nopAbsXFC (w : Addr) : Statement (.nopAbsXFC w) := by
  unfold Statement
  dsimp only [Instr.info, Instr.opcode, Instr.operand]
  exact ⟨rfl, congrArg Instr.nopAbsXFC (w16_hi_lo w)⟩

theorem sbcAbsX (w : Addr) : Statement (.sbcAbsX w) := by
  unfold Statement
  dsimp only [Instr.info, Instr.opcode, Instr.operand]
  exact ⟨rfl, congrArg Instr.sbcAbsX (w16_hi_lo w)⟩

theorem incAbsX (w : Addr) : Statement (.incAbsX w) := by
  unfold Statement
  dsimp only [Instr.info, Instr.opcode, Instr.operand]
  exact ⟨rfl, congrArg Instr.incAbsX (w16_hi_lo w)⟩

theorem iscAbsX (w : Addr) : Statement (.iscAbsX w) := by
  unfold Statement
  dsimp only [Instr.info, Instr.opcode, Instr.operand]
  exact ⟨rfl, congrArg Instr.iscAbsX (w16_hi_lo w)⟩

end Sys2Proof.Laws.Encoding
end

