-- ==== Sys2Proof/Laws/Pipeline.lean ====
section
/-! SUPPORT. What one PPU dot does to the background pipeline, to secondary OAM, to the sprite slots and to the pixel: one
lemma for each part. -/

namespace Sys2Proof.Machine

/-- The background pipeline (10 R45, R46). -/
def Ppu.bgPart (p : Ppu) : (BitVec 16 × BitVec 16 × BitVec 16 × BitVec 16) × (Byte × Byte × BitVec 2 × Byte) :=
  ((p.bgPatLo, p.bgPatHi, p.bgAttrLo, p.bgAttrHi), (p.latPatLo, p.latPatHi, p.latAttr, p.latTile))

/-- Secondary OAM (10 R35). -/
def Ppu.evalPart (p : Ppu) : Vector Byte 32 × Nat × Bool := (p.oam2, p.oam2Count, p.sprite0InSecondary)

/-- The sprite slots (10 R47). -/
def Ppu.slotPart (p : Ppu) : Vector SpriteSlot 8 × Bool := (p.slots, p.sprite0InScanline)

/-- A scan of OAM writes secondary OAM and the overflow flag alone. -/
theorem scanOam_frame (l : Int) (rs : List Nat) (n : Nat) (p : Ppu) :
    ∃ oam2 count sprite0 ovf, Ppu.scanOam l rs n p =
      { p with oam2 := oam2, oam2Count := count, sprite0InSecondary := sprite0
               status := { p.status with sprOverflow := ovf } } := by
  induction rs generalizing n p with
  | nil => exact ⟨p.oam2, n, p.sprite0InSecondary, p.status.sprOverflow, rfl⟩
  | cons i rs ih =>
    unfold Ppu.scanOam
    split
    · split
      · exact ih (n + 1) { p with oam2 := p.copyRecord i n, sprite0InSecondary := p.sprite0InSecondary || i == 0 }
      · exact ⟨p.oam2, n, p.sprite0InSecondary, _, rfl⟩
    · exact ih n p

/-- The dot-65 action, whether or not it is taken, writes those parts alone. -/
theorem evaluate_frame (l : Int) (d : Nat) (p : Ppu) :
    ∃ oam2 count sprite0 ovf, (if 0 ≤ l ∧ d = 65 then p.evaluateSprites l else p) =
      { p with oam2 := oam2, oam2Count := count, sprite0InSecondary := sprite0
               status := { p.status with sprOverflow := ovf } } := by
  split
  · exact scanOam_frame l _ 0 p
  · exact ⟨p.oam2, p.oam2Count, p.sprite0InSecondary, p.status.sprOverflow, rfl⟩

/-- The actions of a dot between the background and the evaluation (51 R320 to R323). -/
def Ppu.scrollDots (c : Cart) (l : Int) (d : Nat) (r : Bool) (p : Ppu) : Ppu :=
  (((p.verticalDot d r).dot257 c l d r).copyDot l d r).oamAddrDot d r

/-- They write v, OAMADDR and, on dot 257, the slots. -/
theorem scrollDots_frame (c : Cart) (l : Int) (d : Nat) (r : Bool) (p : Ppu) :
    ∃ v a, p.scrollDots c l d r = { (if d = 257 then p.spriteFetch c l else p) with v := v, oamaddr := a }
      ∧ a = if 257 ≤ d ∧ d ≤ 320 ∧ r then 0 else p.oamaddr := by
  have h1 : ∃ v, p.verticalDot d r = { p with v := v } := by
    unfold Ppu.verticalDot
    split <;> exact ⟨_, rfl⟩
  obtain ⟨v1, e1⟩ := h1
  have h2 : ∃ v, (p.verticalDot d r).dot257 c l d r = { (if d = 257 then p.spriteFetch c l else p) with v := v } := by
    rw [e1]
    unfold Ppu.dot257
    by_cases hd : d = 257
    · cases r <;> simp only [hd, if_true] <;> exact ⟨_, rfl⟩
    · simp only [hd, if_false]
      exact ⟨_, rfl⟩
  obtain ⟨v2, e2⟩ := h2
  have h3 : ∃ v, ((p.verticalDot d r).dot257 c l d r).copyDot l d r =
      { (if d = 257 then p.spriteFetch c l else p) with v := v } := by
    rw [e2]
    unfold Ppu.copyDot
    split <;> exact ⟨_, rfl⟩
  obtain ⟨v3, e3⟩ := h3
  have ha : (if d = 257 then p.spriteFetch c l else p).oamaddr = p.oamaddr := by split <;> rfl
  refine ⟨v3, _, ?_, rfl⟩
  unfold Ppu.scrollDots Ppu.oamAddrDot
  rw [e3]
  split
  · rfl
  · rw [← ha]

/-- The actions of a dot of a rendering line, in their parts. -/
theorem renderingLineDot_parts (c : Cart) (l : Int) (d : Nat) (r : Bool) (p : Ppu) :
    p.renderingLineDot c l d r =
      let q := ((if 0 ≤ l ∧ d = 1 then p.clearSecondaryOam else p).backgroundDot c d r).scrollDots c l d r
      (if 0 ≤ l ∧ d = 65 then q.evaluateSprites l else q).pixelDot c l d := rfl

/-- What a background dot writes: the pipeline and v. -/
theorem backgroundDot_frame (c : Cart) (d : Nat) (r : Bool) (p : Ppu) :
    ∃ b0 b1 b2 b3 l0 l1 l2 l3 v, p.backgroundDot c d r =
      { p with bgPatLo := b0, bgPatHi := b1, bgAttrLo := b2, bgAttrHi := b3
               latPatLo := l0, latPatHi := l1, latAttr := l2, latTile := l3, v := v } := by
  unfold Ppu.backgroundDot
  split
  · unfold Ppu.fetchStep
    split
    · exact ⟨_, _, _, _, _, _, _, _, _, rfl⟩
    · exact ⟨_, _, _, _, _, _, _, _, _, rfl⟩
    · exact ⟨_, _, _, _, _, _, _, _, _, rfl⟩
    · exact ⟨_, _, _, _, _, _, _, _, _, rfl⟩
    · split <;> exact ⟨_, _, _, _, _, _, _, _, _, rfl⟩
    · exact ⟨_, _, _, _, _, _, _, _, _, rfl⟩
  · exact ⟨p.bgPatLo, p.bgPatHi, p.bgAttrLo, p.bgAttrHi, p.latPatLo, p.latPatHi, p.latAttr, p.latTile, p.v, rfl⟩

theorem fetch_bgPart_clear (c : Cart) (d : Nat) (r : Bool) (p : Ppu) :
    (p.clearSecondaryOam.backgroundDot c d r).bgPart = (p.backgroundDot c d r).bgPart := by
  unfold Ppu.backgroundDot
  split
  · unfold Ppu.fetchStep
    split
    · rfl
    · rfl
    · rfl
    · rfl
    · split <;> rfl
    · rfl
  · rfl

theorem fetch_bgPart_status (c : Cart) (d : Nat) (r : Bool) (p : Ppu) :
    (p.clearStatus.backgroundDot c d r).bgPart = (p.backgroundDot c d r).bgPart := by
  unfold Ppu.backgroundDot
  split
  · unfold Ppu.fetchStep
    split
    · rfl
    · rfl
    · rfl
    · rfl
    · split <;> rfl
    · rfl
  · rfl

theorem scrollDots_bgPart (c : Cart) (l : Int) (d : Nat) (r : Bool) (p : Ppu) :
    (p.scrollDots c l d r).bgPart = p.bgPart := by
  obtain ⟨v, a, e, -⟩ := scrollDots_frame c l d r p
  rw [e]
  split <;> rfl

theorem pixelDot_bgPart (c : Cart) (l : Int) (d : Nat) (p : Ppu) : (p.pixelDot c l d).bgPart = p.bgPart := by
  unfold Ppu.pixelDot
  split <;> rfl

theorem advance_bgPart (p : Ppu) : p.advance.bgPart = p.bgPart := by
  rw [advance_eq]
  split
  · split <;> rfl
  · rfl

theorem renderingLineDot_bgPart (c : Cart) (l : Int) (d : Nat) (r : Bool) (p : Ppu) :
    (p.renderingLineDot c l d r).bgPart = (p.backgroundDot c d r).bgPart := by
  rw [renderingLineDot_parts]
  simp only
  rw [pixelDot_bgPart]
  obtain ⟨o, n, s0, ov, e⟩ := evaluate_frame l d
    (((if 0 ≤ l ∧ d = 1 then p.clearSecondaryOam else p).backgroundDot c d r).scrollDots c l d r)
  rw [e]
  show (Ppu.scrollDots _ _ _ _ _).bgPart = _
  rw [scrollDots_bgPart]
  split
  · exact fetch_bgPart_clear c d r p
  · rfl

/-- The background pipeline after one tick (51 R310, R314 to R318). -/
theorem ppuTick_bgPart (s : State) :
    (ppuTick s).ppu.bgPart =
      if -1 ≤ s.ppu.scanline ∧ s.ppu.scanline ≤ 239 then (s.ppu.backgroundDot s.cart s.ppu.dot s.ppu.rendering).bgPart
      else s.ppu.bgPart := by
  show ((s.ppu.dotActions s.cart).advance).bgPart = _
  rw [advance_bgPart]
  unfold Ppu.dotActions
  simp only
  have h1 : ∀ q : Ppu, (if s.ppu.scanline = 241 ∧ s.ppu.dot = 1 then
      { q with status := { q.status with vblank := true } } else q).bgPart = q.bgPart := by
    intro q; split <;> rfl
  rw [h1]
  split
  · rw [renderingLineDot_bgPart]
    split
    · exact fetch_bgPart_status _ _ _ _
    · rfl
  · split <;> rfl

-- Secondary OAM.

/-- What a scan makes of secondary OAM and overflow depends on OAM, the sprite height, the mask and those parts alone. -/
theorem scanOam_congr (l : Int) (rs : List Nat) (n : Nat) (p q : Ppu) (h1 : p.oam = q.oam) (h2 : p.ctrl = q.ctrl)
    (h3 : p.mask = q.mask) (h4 : p.oam2 = q.oam2) (h5 : p.sprite0InSecondary = q.sprite0InSecondary)
    (h6 : p.status.sprOverflow = q.status.sprOverflow) :
    (Ppu.scanOam l rs n p).evalPart = (Ppu.scanOam l rs n q).evalPart
      ∧ (Ppu.scanOam l rs n p).status.sprOverflow = (Ppu.scanOam l rs n q).status.sprOverflow := by
  induction rs generalizing n p q with
  | nil => exact ⟨by simp only [Ppu.evalPart, Ppu.scanOam, h4, h5], h6⟩
  | cons i rs ih =>
    have hr : p.inRange l i = q.inRange l i := by unfold Ppu.inRange Ppu.spriteHeight Ppu.oamByte; rw [h1, h2]
    have hc : p.copyRecord i n = q.copyRecord i n := by unfold Ppu.copyRecord Ppu.oamByte; rw [h1, h4]
    have hm : p.rendering = q.rendering := by unfold Ppu.rendering; rw [h3]
    unfold Ppu.scanOam
    rw [hr]
    split
    · split
      · exact ih (n + 1) _ _ h1 h2 h3 hc (by show (_ || _) = (_ || _); rw [h5]) h6
      · exact ⟨by show (_, _, _) = (_, _, _); simp only [h4, h5], by show (_ || _) = (_ || _); rw [h6, hm]⟩
    · exact ih n p q h1 h2 h3 h4 h5 h6

/-- What a scan does (51 R326): the records in range, in order, go to the free places of secondary OAM, eight at the most;
a further one sets overflow if rendering is enabled. -/
theorem scanOam_spec (l : Int) (rs : List Nat) (n : Nat) (p : Ppu) (hn : n ≤ 8) :
    let found := rs.filter fun i => p.inRange l i
    let q := Ppu.scanOam l rs n p
    q.oam2Count = min 8 (n + found.length)
      ∧ (∀ k j, k < 8 → j < 4 → q.oam2[4 * k + j]? =
          if n ≤ k ∧ k < n + found.length then some (p.oamByte (found.getD (k - n) 0) j) else p.oam2[4 * k + j]?)
      ∧ q.status.sprOverflow = (p.status.sprOverflow || (decide (8 < n + found.length) && p.rendering))
      ∧ q.sprite0InSecondary = (p.sprite0InSecondary || (found.take (8 - n)).contains 0) := by
  induction rs generalizing n p with
  | nil =>
    refine ⟨?_, ?_, ?_, ?_⟩
    · show n = _
      simp
      omega
    · intro k j _ _
      rw [if_neg fun g => by simp at g; omega]; rfl
    · simp [Ppu.scanOam]
      omega
    · simp [Ppu.scanOam]
  | cons i rs ih =>
    intro found q
    by_cases h : p.inRange l i = true
    · by_cases h8 : n < 8
      · have hq : q = Ppu.scanOam l rs (n + 1)
          { p with oam2 := p.copyRecord i n, sprite0InSecondary := p.sprite0InSecondary || i == 0 } := by
          show Ppu.scanOam l (i :: rs) n p = _
          rw [Ppu.scanOam, if_pos h, if_pos h8]
        have hf : found = i :: rs.filter fun i => p.inRange l i := by
          simp [found, h]
        obtain ⟨a, b, c, d⟩ := ih (n + 1)
          { p with oam2 := p.copyRecord i n, sprite0InSecondary := p.sprite0InSecondary || i == 0 } (by omega)
        rw [← hq] at a b c d
        rw [hf]
        simp only [List.length_cons]
        refine ⟨?_, ?_, ?_, ?_⟩
        · rw [a]; show min 8 (n + 1 + (rs.filter fun i => p.inRange l i).length) = _
          congr 1; omega
        · intro k j hk hj
          rw [b k j hk hj]
          show (if n + 1 ≤ k ∧ k < n + 1 + (rs.filter fun i => p.inRange l i).length then
            some (p.oamByte ((rs.filter fun i => p.inRange l i).getD (k - (n + 1)) 0) j) else (p.copyRecord i n)[4 * k + j]?) = _
          by_cases e : k = n
          · subst e
            rw [if_neg (by omega), if_pos (by omega), Nat.sub_self, List.getD_cons_zero]
            unfold Ppu.copyRecord
            interval_cases j <;> simp [Vector.getElem?_setIfInBounds] <;> omega
          · by_cases g : n + 1 ≤ k ∧ k < n + 1 + (rs.filter fun i => p.inRange l i).length
            · rw [if_pos g, if_pos (by omega), show k - n = (k - (n + 1)) + 1 by omega, List.getD_cons_succ]
            · rw [if_neg g, if_neg (by omega)]
              unfold Ppu.copyRecord
              rw [Vector.getElem?_setIfInBounds_ne (by omega), Vector.getElem?_setIfInBounds_ne (by omega),
                Vector.getElem?_setIfInBounds_ne (by omega), Vector.getElem?_setIfInBounds_ne (by omega)]
        · refine c.trans ?_
          show (p.status.sprOverflow || (decide (8 < n + 1 + (rs.filter fun i => p.inRange l i).length) && p.rendering)) = _
          rw [Nat.add_assoc, Nat.add_comm 1]
        · rw [d, show 8 - n = 8 - (n + 1) + 1 by omega, List.take_succ_cons]
          show ((_ || _) || ((rs.filter fun i => p.inRange l i).take (8 - (n + 1))).contains 0) = _
          rw [List.contains_cons, Bool.or_assoc]
          congr 2
          cases i <;> rfl
      · have hq : q = { p with oam2Count := n
                               status := { p.status with sprOverflow := p.status.sprOverflow || p.rendering } } := by
          show Ppu.scanOam l (i :: rs) n p = _
          rw [Ppu.scanOam, if_pos h, if_neg h8]
        have hf : 1 ≤ found.length := by simp [found, h]
        rw [hq]
        refine ⟨?_, ?_, ?_, ?_⟩
        · show n = _
          omega
        · intro k j hk hj; rw [if_neg (by omega)]
        · have : 8 < n + found.length := by omega
          simp [this]
        · rw [show 8 - n = 0 by omega]; simp
    · have hq : q = Ppu.scanOam l rs n p := by
        show Ppu.scanOam l (i :: rs) n p = _
        rw [Ppu.scanOam, if_neg h]
      have hf : found = rs.filter fun i => p.inRange l i := by simp [found, h]
      rw [hq, hf]
      exact ih n p hn

/-- Secondary OAM after one tick: cleared on dot 1 and written on dot 65 of a visible line (51 R325, R326). -/
theorem ppuTick_evalPart (s : State) :
    (ppuTick s).ppu.evalPart =
      if 0 ≤ s.ppu.scanline ∧ s.ppu.scanline ≤ 239 ∧ s.ppu.dot = 1 then (Vector.replicate 32 0xFF, 0, false)
      else if 0 ≤ s.ppu.scanline ∧ s.ppu.scanline ≤ 239 ∧ s.ppu.dot = 65 then
        (s.ppu.evaluateSprites s.ppu.scanline).evalPart
      else s.ppu.evalPart := by
  have ha : ∀ q : Ppu, q.advance.evalPart = q.evalPart := by
    intro q
    rw [advance_eq]
    split
    · split <;> rfl
    · rfl
  have hp : ∀ (c : Cart) (l : Int) (d : Nat) (q : Ppu), (q.pixelDot c l d).evalPart = q.evalPart := by
    intro c l d q
    unfold Ppu.pixelDot
    split <;> rfl
  show ((s.ppu.dotActions s.cart).advance).evalPart = _
  rw [ha]
  unfold Ppu.dotActions
  simp only
  have h1 : ∀ q : Ppu, (if s.ppu.scanline = 241 ∧ s.ppu.dot = 1 then
      { q with status := { q.status with vblank := true } } else q).evalPart = q.evalPart := by
    intro q; split <;> rfl
  rw [h1]
  generalize hq : (if s.ppu.scanline = -1 ∧ s.ppu.dot = 1 then s.ppu.clearStatus else s.ppu) = q
  have hqe : q.evalPart = s.ppu.evalPart ∧ q.oam = s.ppu.oam ∧ q.ctrl = s.ppu.ctrl ∧ q.mask = s.ppu.mask := by
    subst hq; split <;> exact ⟨rfl, rfl, rfl, rfl⟩
  by_cases hl : -1 ≤ s.ppu.scanline ∧ s.ppu.scanline ≤ 239
  · rw [if_pos hl, renderingLineDot_parts]
    simp only
    rw [hp]
    generalize hr : (if 0 ≤ s.ppu.scanline ∧ s.ppu.dot = 1 then q.clearSecondaryOam else q) = q1
    obtain ⟨b0, b1, b2, b3, l0, l1, l2, l3, v, eb⟩ := backgroundDot_frame s.cart s.ppu.dot s.ppu.rendering q1
    obtain ⟨v', a, es, -⟩ := scrollDots_frame s.cart s.ppu.scanline s.ppu.dot s.ppu.rendering
      (q1.backgroundDot s.cart s.ppu.dot s.ppu.rendering)
    generalize e2 : (q1.backgroundDot s.cart s.ppu.dot s.ppu.rendering).scrollDots s.cart s.ppu.scanline s.ppu.dot
      s.ppu.rendering = q2 at es ⊢
    have k2 : q2.evalPart = q1.evalPart ∧ q2.oam = q1.oam ∧ q2.ctrl = q1.ctrl ∧ q2.mask = q1.mask := by
      rw [es, eb]
      split <;> exact ⟨rfl, rfl, rfl, rfl⟩
    by_cases hd : 0 ≤ s.ppu.scanline ∧ s.ppu.dot = 65
    · have n1 : ¬ s.ppu.dot = 1 := by omega
      have eq1 : q1 = q := by subst hr; simp [n1]
      have hql : q = s.ppu := by subst hq; simp [n1]
      rw [if_pos hd, if_neg (by omega), if_pos ⟨hd.1, hl.2, hd.2⟩]
      subst eq1
      subst hql
      have k : q2.oam2 = s.ppu.oam2 ∧ q2.sprite0InSecondary = s.ppu.sprite0InSecondary := by
        have := k2.1
        unfold Ppu.evalPart at this
        simp only [Prod.mk.injEq] at this
        exact ⟨this.1, this.2.2⟩
      have ks : q2.status = s.ppu.status := by
        rw [es, eb]
        split <;> rfl
      exact (scanOam_congr _ _ 0 q2 s.ppu k2.2.1 k2.2.2.1 k2.2.2.2 k.1 k.2 (by rw [ks])).1
    · rw [if_neg hd, k2.1]
      subst hr
      by_cases h1 : 0 ≤ s.ppu.scanline ∧ s.ppu.dot = 1
      · rw [if_pos h1, if_pos ⟨h1.1, hl.2, h1.2⟩]
        rfl
      · rw [if_neg h1, if_neg (fun g => h1 ⟨g.1, g.2.2⟩), if_neg (fun g => hd ⟨g.1, g.2.2⟩)]
        exact hqe.1
  · rw [if_neg hl, if_neg (fun g => hl ⟨by omega, g.2.1⟩), if_neg (fun g => hl ⟨by omega, g.2.1⟩)]
    exact hqe.1

-- The slots and the pixel.

/-- What dot 257 loads into the slots depends on secondary OAM, PPUCTRL and the PPU's bus alone. -/
theorem spriteFetch_congr (c : Cart) (l : Int) (p q : Ppu) (h1 : p.evalPart = q.evalPart) (h2 : p.ctrl = q.ctrl)
    (h3 : p.nt = q.nt) (h4 : p.pal = q.pal) : (p.spriteFetch c l).slotPart = (q.spriteFetch c l).slotPart := by
  simp only [Ppu.evalPart, Prod.mk.injEq] at h1
  cases p
  cases q
  simp only at h1 h2 h3 h4
  obtain ⟨rfl, rfl, rfl⟩ := h1
  subst h2 h3 h4
  rfl

/-- The pixel of a dot is drawn by a PPU with the registers this dot's background step leaves, and with the slots, the
mask, the palette, the frame and the hit flag as they were. -/
structure Ppu.Draws (p q : Ppu) (c : Cart) (d : Nat) (r : Bool) : Prop where
  bg : q.bgPart = (p.backgroundDot c d r).bgPart
  slots : q.slotPart = p.slotPart
  mask : q.mask = p.mask
  x : q.x = p.x
  nt : q.nt = p.nt
  pal : q.pal = p.pal
  frame : q.frameOut = p.frameOut
  hit : q.status.spr0Hit = p.status.spr0Hit

/-- A visible dot with a pixel (51 R310, R328). -/
theorem renderingLineDot_draws (c : Cart) (l : Int) (d : Nat) (r : Bool) (p : Ppu) (h : 0 ≤ l ∧ 1 ≤ d ∧ d ≤ 256) :
    ∃ q : Ppu, p.Draws q c d r ∧ p.renderingLineDot c l d r = (q.renderPixel c (d - 1) l).updateSpriteCounters := by
  rw [renderingLineDot_parts]
  simp only
  generalize hr : (if 0 ≤ l ∧ d = 1 then p.clearSecondaryOam else p) = q1
  have k1 : (q1.backgroundDot c d r).bgPart = (p.backgroundDot c d r).bgPart ∧ q1.slotPart = p.slotPart
      ∧ q1.mask = p.mask ∧ q1.x = p.x ∧ q1.nt = p.nt ∧ q1.pal = p.pal ∧ q1.frameOut = p.frameOut
      ∧ q1.status.spr0Hit = p.status.spr0Hit := by
    subst hr
    split
    · exact ⟨fetch_bgPart_clear c d r p, rfl, rfl, rfl, rfl, rfl, rfl, rfl⟩
    · exact ⟨rfl, rfl, rfl, rfl, rfl, rfl, rfl, rfl⟩
  obtain ⟨b0, b1, b2, b3, l0, l1, l2, l3, v, eb⟩ := backgroundDot_frame c d r q1
  have k2 : (q1.backgroundDot c d r).slotPart = q1.slotPart ∧ (q1.backgroundDot c d r).mask = q1.mask
      ∧ (q1.backgroundDot c d r).x = q1.x ∧ (q1.backgroundDot c d r).nt = q1.nt
      ∧ (q1.backgroundDot c d r).pal = q1.pal ∧ (q1.backgroundDot c d r).frameOut = q1.frameOut
      ∧ (q1.backgroundDot c d r).status.spr0Hit = q1.status.spr0Hit := by
    rw [eb]; exact ⟨rfl, rfl, rfl, rfl, rfl, rfl, rfl⟩
  obtain ⟨v', a, es, -⟩ := scrollDots_frame c l d r (q1.backgroundDot c d r)
  rw [if_neg (by omega)] at es
  rw [es]
  obtain ⟨o, n, s0, ov, ee⟩ := evaluate_frame l d { q1.backgroundDot c d r with v := v', oamaddr := a }
  generalize (if 0 ≤ l ∧ d = 65 then Ppu.evaluateSprites l { q1.backgroundDot c d r with v := v', oamaddr := a }
    else { q1.backgroundDot c d r with v := v', oamaddr := a }) = q2 at ee ⊢
  unfold Ppu.pixelDot
  rw [if_pos h]
  refine ⟨q2, ?_, rfl⟩
  subst ee
  exact ⟨k1.1, k2.1.trans k1.2.1, k2.2.1.trans k1.2.2.1, k2.2.2.1.trans k1.2.2.2.1, k2.2.2.2.1.trans k1.2.2.2.2.1,
    k2.2.2.2.2.1.trans k1.2.2.2.2.2.1, k2.2.2.2.2.2.1.trans k1.2.2.2.2.2.2.1, k2.2.2.2.2.2.2.trans k1.2.2.2.2.2.2.2⟩

/-- A dot of a rendering line without a pixel: the slots stay, but for dot 257. -/
theorem renderingLineDot_slotPart (c : Cart) (l : Int) (d : Nat) (r : Bool) (p : Ppu)
    (h : ¬(0 ≤ l ∧ 1 ≤ d ∧ d ≤ 256)) :
    (p.renderingLineDot c l d r).slotPart = if d = 257 then (p.spriteFetch c l).slotPart else p.slotPart := by
  rw [renderingLineDot_parts]
  simp only
  generalize hr : (if 0 ≤ l ∧ d = 1 then p.clearSecondaryOam else p) = q1
  have e1 : q1 = p := by subst hr; exact if_neg (by omega)
  subst e1
  obtain ⟨b0, b1, b2, b3, l0, l1, l2, l3, v, eb⟩ := backgroundDot_frame c d r q1
  obtain ⟨v', a, es, -⟩ := scrollDots_frame c l d r (q1.backgroundDot c d r)
  rw [es]
  obtain ⟨o, n, s0, ov, ee⟩ := evaluate_frame l d
    { (if d = 257 then (q1.backgroundDot c d r).spriteFetch c l else q1.backgroundDot c d r) with
      v := v', oamaddr := a }
  rw [ee]
  unfold Ppu.pixelDot
  rw [if_neg h]
  show (if d = 257 then (q1.backgroundDot c d r).spriteFetch c l else q1.backgroundDot c d r).slotPart = _
  split
  · apply spriteFetch_congr <;> rw [eb]
    rfl
  · rw [eb]; rfl

/-- A visible dot with a pixel, as a whole tick. -/
theorem ppuTick_draws (s : State) (h : 0 ≤ s.ppu.scanline ∧ s.ppu.scanline ≤ 239 ∧ 1 ≤ s.ppu.dot ∧ s.ppu.dot ≤ 256) :
    ∃ q : Ppu, s.ppu.Draws q s.cart s.ppu.dot s.ppu.rendering
      ∧ (ppuTick s).ppu = ((q.renderPixel s.cart (s.ppu.dot - 1) s.ppu.scanline).updateSpriteCounters).advance := by
  obtain ⟨q, hq, e⟩ := renderingLineDot_draws s.cart s.ppu.scanline s.ppu.dot s.ppu.rendering s.ppu ⟨h.1, h.2.2⟩
  refine ⟨q, hq, ?_⟩
  show (s.ppu.dotActions s.cart).advance = _
  unfold Ppu.dotActions
  simp only
  rw [if_neg (show ¬(s.ppu.scanline = 241 ∧ s.ppu.dot = 1) by omega), if_pos ⟨by omega, h.2.1⟩,
    if_neg (show ¬(s.ppu.scanline = -1 ∧ s.ppu.dot = 1) by omega), e]

theorem advance_slotPart (p : Ppu) : p.advance.slotPart = p.slotPart := by
  rw [advance_eq]
  split
  · split <;> rfl
  · rfl

/-- The slots after one tick: counted or shifted on a visible dot, loaded on dot 257 of a rendering line (51 R323, R330). -/
theorem ppuTick_slotPart (s : State) :
    (ppuTick s).ppu.slotPart =
      if 0 ≤ s.ppu.scanline ∧ s.ppu.scanline ≤ 239 ∧ 1 ≤ s.ppu.dot ∧ s.ppu.dot ≤ 256 then
        (s.ppu.slots.map SpriteSlot.tick, s.ppu.sprite0InScanline)
      else if -1 ≤ s.ppu.scanline ∧ s.ppu.scanline ≤ 239 ∧ s.ppu.dot = 257 then
        (s.ppu.spriteFetch s.cart s.ppu.scanline).slotPart
      else s.ppu.slotPart := by
  split
  · next h =>
    obtain ⟨q, hq, e⟩ := ppuTick_draws s h
    rw [e, advance_slotPart]
    have := hq.slots
    simp only [Ppu.slotPart, Prod.mk.injEq] at this
    show (q.slots.map SpriteSlot.tick, q.sprite0InScanline) = _
    rw [this.1, this.2]
  · next h =>
    show ((s.ppu.dotActions s.cart).advance).slotPart = _
    rw [advance_slotPart]
    unfold Ppu.dotActions
    simp only
    have h1 : ∀ q : Ppu, (if s.ppu.scanline = 241 ∧ s.ppu.dot = 1 then
        { q with status := { q.status with vblank := true } } else q).slotPart = q.slotPart := by
      intro q; split <;> rfl
    rw [h1]
    generalize hq : (if s.ppu.scanline = -1 ∧ s.ppu.dot = 1 then s.ppu.clearStatus else s.ppu) = q
    have hqs : q.slotPart = s.ppu.slotPart
        ∧ (q.spriteFetch s.cart s.ppu.scanline).slotPart = (s.ppu.spriteFetch s.cart s.ppu.scanline).slotPart := by
      subst hq
      split
      · exact ⟨rfl, spriteFetch_congr _ _ _ _ rfl rfl rfl rfl⟩
      · exact ⟨rfl, rfl⟩
    by_cases hl : -1 ≤ s.ppu.scanline ∧ s.ppu.scanline ≤ 239
    · rw [if_pos hl, renderingLineDot_slotPart _ _ _ _ _ (by omega), hqs.1, hqs.2]
      by_cases hd : s.ppu.dot = 257
      · rw [if_pos hd, if_pos ⟨hl.1, hl.2, hd⟩]
      · rw [if_neg hd, if_neg (fun g => hd g.2.2)]
    · rw [if_neg hl, if_neg (fun g => hl ⟨g.1, g.2.1⟩)]
      exact hqs.1

/-- OAMADDR after one tick (51 R322). -/
theorem ppuTick_oamaddr (s : State) :
    (ppuTick s).ppu.oamaddr =
      if -1 ≤ s.ppu.scanline ∧ s.ppu.scanline ≤ 239 ∧ 257 ≤ s.ppu.dot ∧ s.ppu.dot ≤ 320 ∧ s.ppu.rendering then 0
      else s.ppu.oamaddr := by
  show ((s.ppu.dotActions s.cart).advance).oamaddr = _
  rw [(advance_keeps _).2.1]
  unfold Ppu.dotActions
  simp only
  have h1 : ∀ q : Ppu, (if s.ppu.scanline = 241 ∧ s.ppu.dot = 1 then
      { q with status := { q.status with vblank := true } } else q).oamaddr = q.oamaddr := by
    intro q; split <;> rfl
  rw [h1]
  generalize hq : (if s.ppu.scanline = -1 ∧ s.ppu.dot = 1 then s.ppu.clearStatus else s.ppu) = q
  have hqa : q.oamaddr = s.ppu.oamaddr := by subst hq; split <;> rfl
  by_cases hl : -1 ≤ s.ppu.scanline ∧ s.ppu.scanline ≤ 239
  · rw [if_pos hl, renderingLineDot_parts]
    simp only
    have hp : ∀ q : Ppu, (q.pixelDot s.cart s.ppu.scanline s.ppu.dot).oamaddr = q.oamaddr := by
      intro q; unfold Ppu.pixelDot; split <;> rfl
    rw [hp]
    obtain ⟨o, n, s0, ov, ee⟩ := evaluate_frame s.ppu.scanline s.ppu.dot
      (((if 0 ≤ s.ppu.scanline ∧ s.ppu.dot = 1 then q.clearSecondaryOam else q).backgroundDot s.cart s.ppu.dot
        s.ppu.rendering).scrollDots s.cart s.ppu.scanline s.ppu.dot s.ppu.rendering)
    rw [ee]
    obtain ⟨v, a, es, ha⟩ := scrollDots_frame s.cart s.ppu.scanline s.ppu.dot s.ppu.rendering
      ((if 0 ≤ s.ppu.scanline ∧ s.ppu.dot = 1 then q.clearSecondaryOam else q).backgroundDot s.cart s.ppu.dot
        s.ppu.rendering)
    show (Ppu.scrollDots _ _ _ _ _).oamaddr = _
    rw [es]
    show a = _
    obtain ⟨b0, b1, b2, b3, l0, l1, l2, l3, w, eb⟩ := backgroundDot_frame s.cart s.ppu.dot s.ppu.rendering
      (if 0 ≤ s.ppu.scanline ∧ s.ppu.dot = 1 then q.clearSecondaryOam else q)
    have hb : ((if 0 ≤ s.ppu.scanline ∧ s.ppu.dot = 1 then q.clearSecondaryOam else q).backgroundDot s.cart s.ppu.dot
        s.ppu.rendering).oamaddr = s.ppu.oamaddr := by
      rw [eb, ← hqa]
      show (if 0 ≤ s.ppu.scanline ∧ s.ppu.dot = 1 then q.clearSecondaryOam else q).oamaddr = _
      split <;> rfl
    rw [ha, hb]
    simp only [hl.1, hl.2, true_and]
  · rw [if_neg hl, if_neg (fun g => hl ⟨g.1, g.2.1⟩)]
    exact hqa

/-- The frame of one PPU tick: it writes none of these (20 R97, 51 R310). -/
theorem ppuTick_keeps (s : State) :
    let p := s.ppu
    let q := (ppuTick s).ppu
    q.pal = p.pal ∧ q.nt = p.nt ∧ q.oam = p.oam ∧ q.t = p.t ∧ q.x = p.x ∧ q.w = p.w ∧ q.ctrl = p.ctrl ∧ q.mask = p.mask
      ∧ q.readBuffer = p.readBuffer := by
  intro p q
  have h := (dotActions_tame s.cart s.ppu).1
  have e : q = (s.ppu.dotActions s.cart).advance := rfl
  rw [e, advance_eq]
  split
  · split <;> exact ⟨h.pal, h.nt, h.oam, h.t, h.x, h.w, h.ctrl, h.mask, h.readBuffer⟩
  · exact ⟨h.pal, h.nt, h.oam, h.t, h.x, h.w, h.ctrl, h.mask, h.readBuffer⟩

/-- A dot of a rendering line raises sprite overflow on dot 65 of a visible line alone, and writes rendering_sprite0 on a
dot with a pixel alone (51 R326, R330). -/
theorem renderingLineDot_flags (c : Cart) (l : Int) (d : Nat) (r : Bool) (p : Ppu) :
    (¬(0 ≤ l ∧ d = 65) → (p.renderingLineDot c l d r).status.sprOverflow = p.status.sprOverflow)
      ∧ (¬(0 ≤ l ∧ 1 ≤ d ∧ d ≤ 256) → (p.renderingLineDot c l d r).renderingSprite0 = p.renderingSprite0) := by
  rw [renderingLineDot_parts]
  simp only
  generalize hr : (if 0 ≤ l ∧ d = 1 then p.clearSecondaryOam else p) = q1
  have k1 : q1.status = p.status ∧ q1.renderingSprite0 = p.renderingSprite0 := by subst hr; split <;> exact ⟨rfl, rfl⟩
  obtain ⟨b0, b1, b2, b3, l0, l1, l2, l3, v, eb⟩ := backgroundDot_frame c d r q1
  obtain ⟨v', a, es, -⟩ := scrollDots_frame c l d r (q1.backgroundDot c d r)
  have k2 : ((q1.backgroundDot c d r).scrollDots c l d r).status = p.status
      ∧ ((q1.backgroundDot c d r).scrollDots c l d r).renderingSprite0 = p.renderingSprite0 := by
    rw [es, eb, ← k1.1, ← k1.2]
    split <;> exact ⟨rfl, rfl⟩
  generalize (q1.backgroundDot c d r).scrollDots c l d r = q2 at k2 ⊢
  constructor
  · intro h
    rw [if_neg h, ← k2.1]
    unfold Ppu.pixelDot
    split <;> rfl
  · intro h
    unfold Ppu.pixelDot
    rw [if_neg h, ← k2.2]
    obtain ⟨o, n, s0, ov, ee⟩ := evaluate_frame l d q2
    rw [ee]

/-- Where one PPU tick may raise sprite overflow and write rendering_sprite0 (51 R310). -/
theorem ppuTick_flags (s : State) :
    (¬((0 ≤ s.ppu.scanline ∧ s.ppu.scanline ≤ 239) ∧ s.ppu.dot = 65) → (ppuTick s).ppu.status.sprOverflow = true →
        s.ppu.status.sprOverflow = true)
      ∧ (¬(0 ≤ s.ppu.scanline ∧ s.ppu.scanline ≤ 239 ∧ 1 ≤ s.ppu.dot ∧ s.ppu.dot ≤ 256) →
        (ppuTick s).ppu.renderingSprite0 = s.ppu.renderingSprite0) := by
  have e : (ppuTick s).ppu = (s.ppu.dotActions s.cart).advance := rfl
  have ha : ∀ q : Ppu, q.advance.renderingSprite0 = q.renderingSprite0 := by
    intro q
    rw [advance_eq]
    split
    · split <;> rfl
    · rfl
  rw [e, (advance_keeps _).2.2.1, ha]
  unfold Ppu.dotActions
  simp only
  generalize hq : (if s.ppu.scanline = -1 ∧ s.ppu.dot = 1 then s.ppu.clearStatus else s.ppu) = q
  have kq : (q.status.sprOverflow = true → s.ppu.status.sprOverflow = true) ∧ q.renderingSprite0 = s.ppu.renderingSprite0 := by
    subst hq
    split
    · exact ⟨fun h => absurd h (by simp [Ppu.clearStatus]), rfl⟩
    · exact ⟨id, rfl⟩
  have h1 : ∀ u : Ppu, (if s.ppu.scanline = 241 ∧ s.ppu.dot = 1 then
      { u with status := { u.status with vblank := true } } else u).status.sprOverflow = u.status.sprOverflow
      ∧ (if s.ppu.scanline = 241 ∧ s.ppu.dot = 1 then
      { u with status := { u.status with vblank := true } } else u).renderingSprite0 = u.renderingSprite0 := by
    intro u; split <;> exact ⟨rfl, rfl⟩
  rw [(h1 _).1, (h1 _).2]
  by_cases hl : -1 ≤ s.ppu.scanline ∧ s.ppu.scanline ≤ 239
  · rw [if_pos hl]
    obtain ⟨f1, f2⟩ := renderingLineDot_flags s.cart s.ppu.scanline s.ppu.dot s.ppu.rendering q
    refine ⟨fun h => ?_, fun h => ?_⟩
    · rw [f1 fun g => h ⟨⟨g.1, hl.2⟩, g.2⟩]
      exact kq.1
    · rw [f2 fun g => h ⟨g.1, hl.2, g.2⟩]
      exact kq.2
  · rw [if_neg hl]
    exact ⟨fun _ => kq.1, fun _ => kq.2⟩

end Sys2Proof.Machine
end

