-- ==== Sys2Proof/Laws/Tick.lean ====
section
/-! SUPPORT. Fetching, one CPU tick, one group and the frame loop: what each keeps. -/

namespace Sys2Proof.Machine

theorem works_fetchByte (s : State) : Works s (fetchByte s).2 := (works_memRead s _).trans (works_setPc _ _)

theorem works_skipByte (s : State) : Works s (skipByte s).2 := works_setPc s _

theorem works_fetch (s : State) : Works s (fetch s).2 := by
  unfold fetch
  simp only
  split
  · exact works_fetchByte s
  · split
    · exact (works_fetchByte s).trans (works_skipByte _)
    · exact (works_fetchByte s).trans (works_fetchByte _)
  · exact ((works_fetchByte s).trans (works_fetchByte _)).trans (works_fetchByte _)

/-- The instruction that runs at a state, after its fetch. -/
def runFetched (s : State) : State := execNext (fetch s).1 (fetch s).2

theorem executeInstruction_eq (s : State) : executeInstruction s = .next (runFetched s) := exec_next _ _

theorem works_runFetched (s : State) : Works s (runFetched s) := (works_fetch s).trans (works_exec _ _)

/-- A DMA cycle that only stalls (20 R84). -/
theorem dmaCycle_stall {s : State} (h : 512 < s.cpu.dmaRemaining) :
    dmaCycle s = { s with cpu := { s.cpu with dmaRemaining := s.cpu.dmaRemaining - 1 } } := by
  unfold dmaCycle
  simp only
  rw [if_neg (by omega)]

/-- A DMA cycle that reads a source byte (20 R84). -/
theorem dmaCycle_read {s : State} (h : s.cpu.dmaRemaining ≤ 512) (he : (512 - s.cpu.dmaRemaining) % 2 = 0) :
    dmaCycle s =
      { (memRead s (w16 s.cpu.dmaPage (BitVec.ofNat 8 ((512 - s.cpu.dmaRemaining) / 2)))).2 with
        cpu := { s.cpu with
          dmaBuffer := (memRead s (w16 s.cpu.dmaPage (BitVec.ofNat 8 ((512 - s.cpu.dmaRemaining) / 2)))).1
          dmaRemaining := s.cpu.dmaRemaining - 1 } } := by
  unfold dmaCycle
  simp only
  rw [if_pos h, if_pos he]
  simp only [memRead_cpu]

/-- A DMA cycle that writes the byte read to $2004 (20 R84): OAM and OAMADDR alone change (50 R293). -/
theorem dmaCycle_write {s : State} (h : s.cpu.dmaRemaining ≤ 512) (ho : (512 - s.cpu.dmaRemaining) % 2 = 1) :
    dmaCycle s =
      { s with
        cpu := { s.cpu with dmaRemaining := s.cpu.dmaRemaining - 1 }
        ppu := s.ppu.writeOamData s.cpu.dmaBuffer } := by
  unfold dmaCycle
  simp only
  rw [if_pos h, if_neg (by omega), memWrite_ppu _ _ (by decide) (by decide)]
  rfl

theorem works_dmaRemaining (s : State) (n : Nat) (h : n ≤ s.cpu.dmaRemaining) :
    Works s { s with cpu := { s.cpu with dmaRemaining := n } } :=
  ⟨fun m => ⟨⟨m.1.1, m.1.2.1, Nat.le_trans h m.1.2.2.1, m.1.2.2.2⟩, m.2⟩, rfl, .refl _, rfl, rfl, rfl⟩

theorem works_dmaCycle (s : State) : Works s (dmaCycle s) := by
  by_cases h : 512 < s.cpu.dmaRemaining
  · rw [dmaCycle_stall h]
    exact works_dmaRemaining s _ (Nat.sub_le _ _)
  by_cases he : (512 - s.cpu.dmaRemaining) % 2 = 0
  · rw [dmaCycle_read (by omega) he]
    generalize w16 s.cpu.dmaPage (BitVec.ofNat 8 ((512 - s.cpu.dmaRemaining) / 2)) = a
    refine (works_memRead s a).trans ?_
    have hc := memRead_cpu s a
    generalize memRead s a = r at hc ⊢
    rw [← hc]
    exact (works_dmaRemaining r.2 _ (Nat.sub_le _ 1)).trans (.ofCpu _ _ rfl rfl rfl rfl)
  · rw [dmaCycle_write (by omega) (by omega)]
    have w := (works_memWrite s 0x2004 s.cpu.dmaBuffer).trans
      (works_dmaRemaining _ (s.cpu.dmaRemaining - 1) (by rw [memWrite_cpu, if_neg (by decide)]; exact Nat.sub_le _ _))
    rw [memWrite_ppu _ _ (by decide) (by decide)] at w
    exact w

theorem works_nmiEntry (s : State) : Works s (nmiEntry s) := by
  unfold nmiEntry
  exact (works_enterInterrupt s _ _ _).trans (.ofCpu _ _ rfl rfl rfl rfl)

theorem works_countTick (s : State) : Works s (countTick s) := .ofCpu s _ rfl rfl rfl rfl

theorem works_countDown (s : State) : Works s (countDown s) :=
  Works.trans (.ofCpu s { s.cpu with cyclesUntilNext := s.cpu.cyclesUntilNext - 1 } rfl rfl rfl rfl) (works_countTick _)

/-- The state a CPU tick ends in (40 R160). -/
def cpuTickNext (s : State) : State :=
  if 0 < s.cpu.dmaRemaining then countTick (dmaCycle s)
  else if s.cpu.cyclesUntilNext.toInt ≤ 0 then
    if s.cpu.nmiPending then countDown (nmiEntry s) else countDown (runFetched s)
  else countDown s

/-- No CPU tick stops (60 R352). -/
theorem cpuTick_eq (s : State) : cpuTick s = .next (cpuTickNext s) := by
  unfold cpuTick cpuTickNext
  split
  · rfl
  · split
    · split
      · rfl
      · rw [executeInstruction_eq]; rfl
    · rfl

theorem works_cpuTick (s : State) : Works s (cpuTickNext s) := by
  unfold cpuTickNext
  split
  · exact (works_dmaCycle s).trans (works_countTick _)
  · split
    · split
      · exact (works_nmiEntry s).trans (works_countDown _)
      · exact (works_runFetched s).trans (works_countDown _)
    · exact works_countDown s

/-- One less, for a counter in its range (10 R29). -/
theorem toInt_pred {c : BitVec 16} (h1 : 1 ≤ c.toInt) (h8 : c.toInt ≤ 8) : (c - 1).toInt = c.toInt - 1 := by
  rw [BitVec.toInt_sub, Int.bmod_eq_of_le] <;> simp <;> omega

/-- The cycle counter after a tick lies in 0..7 if it did before (10 R29). -/
theorem cpuTick_cycles {s : State} (h : 0 ≤ s.cpu.cyclesUntilNext.toInt ∧ s.cpu.cyclesUntilNext.toInt ≤ 7) :
    0 ≤ (cpuTickNext s).cpu.cyclesUntilNext.toInt ∧ (cpuTickNext s).cpu.cyclesUntilNext.toInt ≤ 7 := by
  unfold cpuTickNext
  split
  · have : (dmaCycle s).cpu.cyclesUntilNext = s.cpu.cyclesUntilNext := by
      unfold dmaCycle
      simp only
      split
      · split
        · rw [memRead_cpu]
        · rw [memWrite_cpu, if_neg (by decide)]
      · rfl
    show 0 ≤ (dmaCycle s).cpu.cyclesUntilNext.toInt ∧ (dmaCycle s).cpu.cyclesUntilNext.toInt ≤ 7
    rw [this]
    exact h
  · split
    · split
      · show 0 ≤ ((nmiEntry s).cpu.cyclesUntilNext - 1).toInt ∧ ((nmiEntry s).cpu.cyclesUntilNext - 1).toInt ≤ 7
        simp [nmiEntry_eq]
      · have := exec_cycles (fetch s).1 (fetch s).2
        show 0 ≤ ((runFetched s).cpu.cyclesUntilNext - 1).toInt ∧ ((runFetched s).cpu.cyclesUntilNext - 1).toInt ≤ 7
        unfold runFetched
        rw [toInt_pred (by omega) (by omega)]
        omega
    · next hc =>
      show 0 ≤ (s.cpu.cyclesUntilNext - 1).toInt ∧ (s.cpu.cyclesUntilNext - 1).toInt ≤ 7
      rw [toInt_pred (by omega) (by omega)]
      omega

-- The PPU's part of a group.

theorem ppuTick_mid {s : State} (m : s.Mid) : (ppuTick s).Mid :=
  ⟨m.1, advance_inv ((dotActions_tame s.cart s.ppu).2 m.2.1), m.2.2⟩

theorem threeDots_mid {s : State} (m : s.Mid) : (threeDots s).Mid := ppuTick_mid (ppuTick_mid (ppuTick_mid m))

theorem threeDots_port (s : State) : (threeDots s).port = s.port := rfl
theorem threeDots_cart (s : State) : (threeDots s).cart = s.cart := rfl
theorem threeDots_p (s : State) : (threeDots s).cpu.p = s.cpu.p := rfl

/-- Where one dot takes the PPU (51 R336, R337). -/
theorem ppuTick_position (s : State) :
    (ppuTick s).ppu.position =
      if s.ppu.endOfLine then
        if s.ppu.scanline = 260 then (-1, 0, s.ppu.frame + 1, true)
        else (s.ppu.scanline + 1, 0, s.ppu.frame, s.ppu.frameReady)
      else (s.ppu.scanline, s.ppu.dot + 1, s.ppu.frame, s.ppu.frameReady) := by
  have h := (dotActions_tame s.cart s.ppu).1
  have k : (s.ppu.dotActions s.cart).endOfLine = s.ppu.endOfLine := by
    unfold Ppu.endOfLine Ppu.rendering
    rw [h.scanline, h.dot, h.frame, h.mask]
  show ((s.ppu.dotActions s.cart).advance).position = _
  rw [advance_eq, k, h.scanline]
  split
  · split
    · simp only [Ppu.position, h.frame]
    · simp only [Ppu.position, h.frame, h.frameReady]
  · simp only [Ppu.position, h.dot, h.frame, h.frameReady]

theorem threeDots_cycles (s : State) : (threeDots s).cpu.cyclesUntilNext = s.cpu.cyclesUntilNext := rfl

-- The frame loop.

/-- The state a step ends in. -/
def stepNext (s : State) : State := closeFrame (cpuTickNext (threeDots (openFrame s)))

/-- No step stops (60 R352). -/
theorem step_eq (s : State) : step s = .next (stepNext s) := by
  unfold step masterStep group
  rw [cpuTick_eq]
  rfl

theorem cpuReset_mid {s : State} (h : s.Mid) : (cpuReset s).Mid := by
  have e : cpuReset s = { s with
      cpu := { s.cpu with
        pc := w16 (s.cart.cpuRead 0xFFFD) (s.cart.cpuRead 0xFFFC)
        p := withFlag s.cpu.p .i true
        s := s.cpu.s - 3
        cyclesUntilNext := 7, nmiPending := false, irqPending := false
        dmaRemaining := 0, dmaPage := 0, dmaBuffer := 0 } } := by
    simp only [cpuReset, read16_reset]
  rw [e]
  refine ⟨⟨?_, ?_, Nat.zero_le _, rfl⟩, h.2⟩
  · show flagOf (withFlag s.cpu.p .i true) .b = false
    rw [flagOf_withFlag, if_neg (by decide)]
    exact h.1.1
  · show flagOf (withFlag s.cpu.p .i true) .u = true
    rw [flagOf_withFlag, if_neg (by decide)]
    exact h.1.2.1

theorem ppuReset_inv {p : Ppu} (h : p.Inv) : p.reset.Inv :=
  ⟨h.1, h.2.1, h.2.2.1, h.2.2.2.1, ⟨Int.le_refl (-1), show (-1 : Int) ≤ 260 by decide⟩, Nat.zero_le _,
    h.2.2.2.2.2.2⟩

/-- The snapshot part of the invariant, from the middle invariant and the cycle counter. -/
theorem snapshot_inv {s : State} (h : s.Mid) (hc : 0 ≤ s.cpu.cyclesUntilNext.toInt ∧ s.cpu.cyclesUntilNext.toInt ≤ 7) :
    s.snapshot.Inv := ⟨⟨h.1, hc⟩, h.2⟩

theorem mid_of_snapshot {s : State} (h : s.snapshot.Inv) : s.Mid := ⟨h.1.1, h.2⟩

theorem machineReset_inv {s : State} (h : s.Mid) : (machineReset s).snapshot.Inv := by
  refine snapshot_inv (cpuReset_mid ⟨h.1, ppuReset_inv h.2.1, cartReset_inv h.2.2.1, h.2.2.2⟩) ?_
  show 0 ≤ (7 : BitVec 16).toInt ∧ (7 : BitVec 16).toInt ≤ 7
  decide

theorem machineReset_port (s : State) : (machineReset s).port = s.port := by
  unfold machineReset cpuReset
  rw [read16_reset]

/-- A reply whose snapshot, if any, is of a machine. -/
theorem reply_inv {s : State} {r : HostReply} (h : s.port.Inv) (hr : ∀ x ∈ r.snapshot?.toList, x.Inv) :
    (s.reply r).port.Inv := by
  refine ⟨h.1, fun q hq => ?_⟩
  rcases List.mem_cons.1 hq with rfl | hq
  · exact hr
  · exact h.2 q hq

/-- What a snapshot request does (70 R398): it leaves the machine as it is and records its error or bytes that decode to it. -/
theorem takeSnapshot_spec (s : State) : ∃ r, takeSnapshot s = s.reply r
    ∧ (r = .snapshotFailed ∨ ∃ bytes, r = .snapshot bytes ∧ Config.snapshotFormat.decode bytes = some s.snapshot) := by
  unfold takeSnapshot
  split
  · exact ⟨_, rfl, .inl rfl⟩
  · exact ⟨_, rfl, .inr ⟨_, rfl, Config.snapshotFormat.roundTrip _⟩⟩

/-- What a restore of a snapshot's bytes does (70 R399): the whole machine is the snapshot's. -/
theorem restoreBytes_spec (s : State) {bytes : List Byte} {x : Snapshot} (h : Config.snapshotFormat.decode bytes = some x) :
    restoreBytes s bytes = (s.restoreFrom x).reply .done ∧ (restoreBytes s bytes).snapshot = x := by
  unfold restoreBytes
  rw [h]
  exact ⟨rfl, rfl⟩

theorem applyRequest_inv {s : State} {q : HostRequest} (hs : s.snapshot.Inv) (hp : s.port.Inv)
    (hq : ∀ x ∈ q.snapshot?.toList, x.Inv) : (applyRequest s q).snapshot.Inv ∧ (applyRequest s q).port.Inv := by
  unfold applyRequest
  split
  · refine ⟨machineReset_inv (mid_of_snapshot hs), reply_inv ?_ (by simp [HostReply.snapshot?])⟩
    rw [machineReset_port]
    exact hp
  · split
    · next c hc =>
      have hm : State.Mid { s with cart := c } := ⟨hs.1.1, hs.2.1, ofINes_inv hc, hs.2.2.2⟩
      refine ⟨machineReset_inv hm, reply_inv ?_ (by simp [HostReply.snapshot?])⟩
      rw [machineReset_port]
      exact hp
    · exact ⟨hs, reply_inv hp (by simp [HostReply.snapshot?])⟩
  · next bytes =>
    unfold restoreBytes
    split
    · next snap e => exact ⟨hq snap (by simp [HostRequest.snapshot?, e]), reply_inv hp (by simp [HostReply.snapshot?])⟩
    · exact ⟨hs, reply_inv hp (by simp [HostReply.snapshot?])⟩
  · unfold takeSnapshot
    split
    · exact ⟨hs, reply_inv hp (by simp [HostReply.snapshot?])⟩
    · refine ⟨hs, reply_inv hp ?_⟩
      intro x hx
      simp only [HostReply.snapshot?, Config.snapshotFormat.roundTrip, Option.toList_some, List.mem_singleton] at hx
      subst hx
      exact hs

theorem applyRequests_inv {qs : List HostRequest} {s : State} (hs : s.snapshot.Inv) (hp : s.port.Inv)
    (hq : ∀ q ∈ qs, ∀ x ∈ q.snapshot?.toList, x.Inv) :
    (applyRequests qs s).snapshot.Inv ∧ (applyRequests qs s).port.Inv := by
  induction qs generalizing s with
  | nil => exact ⟨hs, hp⟩
  | cons q qs ih =>
    have h1 := applyRequest_inv hs hp (hq q (by simp))
    exact ih h1.1 h1.2 fun r hr => hq r (by simp [hr])

theorem openFrame_inv {s : State} (hs : s.snapshot.Inv) (hp : s.port.Inv) :
    (openFrame s).snapshot.Inv ∧ (openFrame s).port.Inv := by
  unfold openFrame
  split
  · split
    · exact ⟨hs, hp⟩
    · next q rest hq =>
      unfold State.poll
      have hp' : Port.Inv { s.port with polls := rest, betweenFrames := false } :=
        ⟨fun r hr => hp.1 r (by rw [hq]; simp [hr]), hp.2⟩
      exact applyRequests_inv (s := { s with port := { s.port with polls := rest, betweenFrames := false } }) hs hp'
        (hp.1 q (by rw [hq]; simp))
  · exact ⟨hs, hp⟩

theorem closeFrame_inv {s : State} (hs : s.snapshot.Inv) (hp : s.port.Inv) : (closeFrame s).Inv := by
  unfold closeFrame
  split
  · exact ⟨hs, hp, rfl⟩
  · next h => exact ⟨hs, hp, by simpa using h⟩

end Sys2Proof.Machine
end

