-- ==== Sys2Proof/Tests/Slice0.lean ====
section
/-! SUPPORT. The model's own tests: ill-formed terms that the checks refuse, words written out from the spec's encodings,
one step of each instruction, and a witness for every statement that has hypotheses. The expected results are the spec's:
the vectors V<n>, N<n>, R<n>, D<n>, K<n>, C<n>, P<n>, S<n>, F<n> and T<n> of file 95 and the examples of the rules named. -/

namespace Sys2Proof.Tests

open Sys2Proof Sys2Proof.Machine Sys2Proof.Claims

-- Well-formedness: each check refuses an ill-formed term (30 R140, R141, R149).

/-- LDA # without its operand byte. -/
theorem test_missing_byte_refused : wellFormedLength .imm [0xA9] = false := by decide

/-- INX with a byte left over. -/
theorem test_left_over_byte_refused : wellFormedLength .imp [0xE8, 0x00] = false := by decide

/-- A branch target one byte out of reach on each side, and the last ones in reach. -/
theorem test_unreachable_branch_refused :
    wellFormedBranch 0xC000 0xC082 = false ∧ wellFormedBranch 0xC000 0xBF81 = false
      ∧ wellFormedBranch 0xC000 0xC081 = true ∧ wellFormedBranch 0xC000 0xBF82 = true := by decide

/-- The decoder refuses, by name, an instruction whose bytes are missing. -/
theorem test_decode_refuses_missing_bytes :
    decode [] = .error .noOpcode ∧ decode [0x8D, 0x00] = .error .missingOperandByte := ⟨rfl, rfl⟩

-- Words written out from the spec: one of each row of the opcode map (30 R143), low byte of an address first (30 R142).

theorem test_decode_row0 : decode [0x01, 0x10] = .ok (.oraIndX 0x10, []) := by rfl
theorem test_decode_row1 : decode [0x1E, 0x34, 0x12] = .ok (.aslAbsX 0x1234, []) := by rfl
theorem test_decode_row2 : decode [0x24, 0x10] = .ok (.bitZp 0x10, []) := by rfl
theorem test_decode_row3 : decode [0x3B, 0x00, 0x03] = .ok (.rlaAbsY 0x0300, []) := by rfl
theorem test_decode_row4 : decode [0x4C, 0x00, 0xC0] = .ok (.jmpAbs 0xC000, []) := by rfl
theorem test_decode_row5 : decode [0x50, 0xFC] = .ok (.bvc 0xFC, []) := by rfl
theorem test_decode_row6 : decode [0x69, 0x50] = .ok (.adcImm 0x50, []) := by rfl
theorem test_decode_row7 : decode [0x74, 0x01] = .ok (.nopZpX74 0x01, []) := by rfl
theorem test_decode_row8 : decode [0x8A] = .ok (.txa, []) := by rfl
theorem test_decode_row9 : decode [0x97, 0xFF] = .ok (.saxZpY 0xFF, []) := by rfl
theorem test_decode_rowA : decode [0xA2, 0x00] = .ok (.ldxImm 0x00, []) := by rfl
theorem test_decode_rowB : decode [0xBC, 0xFF, 0x10] = .ok (.ldyAbsX 0x10FF, []) := by rfl
theorem test_decode_rowC : decode [0xC7, 0x10] = .ok (.dcpZp 0x10, []) := by rfl
theorem test_decode_rowD : decode [0xD9, 0x00, 0x02] = .ok (.cmpAbsY 0x0200, []) := by rfl
theorem test_decode_rowE : decode [0xEB, 0xF0] = .ok (.sbcImmEB 0xF0, []) := by rfl
theorem test_decode_rowF : decode [0xFE, 0xFF, 0x02] = .ok (.incAbsX 0x02FF, []) := by rfl

/-- The table numbers a later byte's bits from 8 on: STA $0300, opcode byte lowest. -/
theorem test_decode_table_word : decodeTableWord 24 0x03008D = some (.staAbs 0x0300) := by rfl

/-- A word placed for the next step is fetched and run by it: LDA #$80 after reset. -/
theorem test_fetch_word_runs :
    (match step (State.reset.withFetchWord 16 0x80A9) with
      | .next t => (t.cpu.a, t.cpu.p, t.cpu.pc)
      | _ => (0, 0, 0)) = (0x80, 0xA4, 0x0002) := by decide

-- One instruction each, from the vectors of 95 section 2.

/-- A machine in the default start state of file 95 but for what is given. -/
def start (a x y p s : Byte) (pc : Addr) (wram : Memory) : State :=
  { State.reset with
    cpu := { Cpu.initial pc with a := a, x := x, y := y, p := p, s := s, cyclesUntilNext := 0 }
    cart := { Cart.blank with prgRom := [(0x3FFF, 0xA0)] }
    wram := wram }

/-- Decode the bytes and run the instruction with PC past it: A, X, Y, P, S, PC high and low, the cycles, and the bytes of
work RAM asked for. -/
def result (bytes : List Byte) (s : State) (addresses : List Nat) : Option (List Byte) :=
  match decode bytes with
  | .ok (i, _) =>
    match exec i (s.advancePc (encode i).length) with
    | .next t =>
      some ([t.cpu.a, t.cpu.x, t.cpu.y, t.cpu.p, t.cpu.s, hi t.cpu.pc, lo t.cpu.pc, BitVec.setWidth 8 t.cpu.cyclesUntilNext]
        ++ addresses.map t.wram.read)
    | .fault _ | .refused _ => none
  | .error _ => none

theorem test_lda_v12 :
    result [0xB1, 0xFF] (start 0x00 0x00 0x20 0x24 0xFD 0x8000 [(0x000, 0x02), (0x0FF, 0xF0), (0x310, 0x66)]) [] =
      some [0x66, 0x00, 0x20, 0x24, 0xFD, 0x80, 0x02, 0x06] := by decide

theorem test_ldx_v4 :
    result [0xB6, 0xFF] (start 0x00 0x00 0x01 0x24 0xFD 0x8000 [(0x000, 0x5C)]) [] =
      some [0x00, 0x5C, 0x01, 0x24, 0xFD, 0x80, 0x02, 0x04] := by decide

theorem test_ldy_v23 :
    result [0xBC, 0xFF, 0x10] (start 0x00 0x01 0x00 0x24 0xFD 0x8000 [(0x100, 0x05)]) [] =
      some [0x00, 0x01, 0x05, 0x24, 0xFD, 0x80, 0x03, 0x05] := by decide

theorem test_sta_v9 :
    result [0x9D, 0xFF, 0x02] (start 0x11 0x01 0x00 0x24 0xFD 0x8000 []) [0x300] =
      some [0x11, 0x01, 0x00, 0x24, 0xFD, 0x80, 0x03, 0x05, 0x11] := by decide

theorem test_stx_v26 :
    result [0x96, 0xFF] (start 0x00 0xAB 0x02 0x24 0xFD 0x8000 []) [0x001] =
      some [0x00, 0xAB, 0x02, 0x24, 0xFD, 0x80, 0x02, 0x04, 0xAB] := by decide

theorem test_sty_v27 :
    result [0x94, 0xFF] (start 0x00 0x02 0xCD 0x24 0xFD 0x8000 []) [0x001] =
      some [0x00, 0x02, 0xCD, 0x24, 0xFD, 0x80, 0x02, 0x04, 0xCD] := by decide

theorem test_adc_v32 :
    result [0x69, 0x00] (start 0x7F 0x00 0x00 0x25 0xFD 0x8000 []) [] =
      some [0x80, 0x00, 0x00, 0xE4, 0xFD, 0x80, 0x02, 0x02] := by decide

theorem test_sbc_v36 :
    result [0xE9, 0xB0] (start 0x50 0x00 0x00 0x25 0xFD 0x8000 []) [] =
      some [0xA0, 0x00, 0x00, 0xE4, 0xFD, 0x80, 0x02, 0x02] := by decide

theorem test_cmp_v42 :
    result [0xC9, 0x01] (start 0x80 0x00 0x00 0x24 0xFD 0x8000 []) [] =
      some [0x80, 0x00, 0x00, 0x25, 0xFD, 0x80, 0x02, 0x02] := by decide

theorem test_cpx_v43 :
    result [0xE0, 0x06] (start 0x00 0x05 0x00 0x24 0xFD 0x8000 []) [] =
      some [0x00, 0x05, 0x00, 0xA4, 0xFD, 0x80, 0x02, 0x02] := by decide

theorem test_cpy_v44 :
    result [0xC0, 0x00] (start 0x00 0x00 0x80 0x24 0xFD 0x8000 []) [] =
      some [0x00, 0x00, 0x80, 0xA5, 0xFD, 0x80, 0x02, 0x02] := by decide

theorem test_inc_v47 :
    result [0xFE, 0xFF, 0x02] (start 0x00 0x01 0x00 0x24 0xFD 0x8000 [(0x300, 0x7F)]) [0x300] =
      some [0x00, 0x01, 0x00, 0xA4, 0xFD, 0x80, 0x03, 0x07, 0x80] := by decide

theorem test_dec_v46 :
    result [0xC6, 0x10] (start 0x00 0x00 0x00 0x24 0xFD 0x8000 []) [0x010] =
      some [0x00, 0x00, 0x00, 0xA4, 0xFD, 0x80, 0x02, 0x05, 0xFF] := by decide

theorem test_inx_v48 :
    result [0xE8] (start 0x00 0xFF 0x00 0x24 0xFD 0x8000 []) [] =
      some [0x00, 0x00, 0x00, 0x26, 0xFD, 0x80, 0x01, 0x02] := by decide

theorem test_dex_v49 :
    result [0xCA] (start 0x00 0x00 0x00 0x24 0xFD 0x8000 []) [] =
      some [0x00, 0xFF, 0x00, 0xA4, 0xFD, 0x80, 0x01, 0x02] := by decide

theorem test_iny_v50 :
    result [0xC8] (start 0x00 0x00 0x7F 0x24 0xFD 0x8000 []) [] =
      some [0x00, 0x00, 0x80, 0xA4, 0xFD, 0x80, 0x01, 0x02] := by decide

theorem test_dey_v51 :
    result [0x88] (start 0x00 0x00 0x01 0x24 0xFD 0x8000 []) [] =
      some [0x00, 0x00, 0x00, 0x26, 0xFD, 0x80, 0x01, 0x02] := by decide

theorem test_and_v52 :
    result [0x29, 0x0F] (start 0xF0 0x00 0x00 0x24 0xFD 0x8000 []) [] =
      some [0x00, 0x00, 0x00, 0x26, 0xFD, 0x80, 0x02, 0x02] := by decide

theorem test_eor_v53 :
    result [0x49, 0xFF] (start 0x0F 0x00 0x00 0x24 0xFD 0x8000 []) [] =
      some [0xF0, 0x00, 0x00, 0xA4, 0xFD, 0x80, 0x02, 0x02] := by decide

theorem test_ora_v54 :
    result [0x09, 0x80] (start 0x01 0x00 0x00 0x24 0xFD 0x8000 []) [] =
      some [0x81, 0x00, 0x00, 0xA4, 0xFD, 0x80, 0x02, 0x02] := by decide

theorem test_asl_v57 :
    result [0x06, 0x10] (start 0x00 0x00 0x00 0x24 0xFD 0x8000 [(0x010, 0x80)]) [0x010] =
      some [0x00, 0x00, 0x00, 0x27, 0xFD, 0x80, 0x02, 0x05, 0x00] := by decide

theorem test_lsr_v58 :
    result [0x4A] (start 0x01 0x00 0x00 0xA4 0xFD 0x8000 []) [] =
      some [0x00, 0x00, 0x00, 0x27, 0xFD, 0x80, 0x01, 0x02] := by decide

theorem test_rol_v60 :
    result [0x2A] (start 0x40 0x00 0x00 0x25 0xFD 0x8000 []) [] =
      some [0x81, 0x00, 0x00, 0xA4, 0xFD, 0x80, 0x01, 0x02] := by decide

theorem test_ror_v63 :
    result [0x66, 0x10] (start 0x00 0x00 0x00 0x25 0xFD 0x8000 [(0x010, 0x02)]) [0x010] =
      some [0x00, 0x00, 0x00, 0xA4, 0xFD, 0x80, 0x02, 0x05, 0x81] := by decide

theorem test_bit_v64 :
    result [0x24, 0x10] (start 0x01 0x00 0x00 0x24 0xFD 0x8000 [(0x010, 0xC0)]) [] =
      some [0x01, 0x00, 0x00, 0xE6, 0xFD, 0x80, 0x02, 0x03] := by decide

theorem test_jmp_v14 :
    result [0x6C, 0xFF, 0x02] (start 0x00 0x00 0x00 0x24 0xFD 0x8000 [(0x200, 0x12), (0x2FF, 0x34), (0x300, 0x99)]) [] =
      some [0x00, 0x00, 0x00, 0x24, 0xFD, 0x12, 0x34, 0x05] := by decide

theorem test_jsr_v68 :
    result [0x20, 0x00, 0x90] (start 0x00 0x00 0x00 0x24 0x00 0x8000 []) [0x100, 0x1FF] =
      some [0x00, 0x00, 0x00, 0x24, 0xFE, 0x90, 0x00, 0x06, 0x80, 0x02] := by decide

theorem test_rts_v69 :
    result [0x60] (start 0x00 0x00 0x00 0x24 0xFB 0x8000 [(0x1FC, 0x02), (0x1FD, 0xC0)]) [] =
      some [0x00, 0x00, 0x00, 0x24, 0xFD, 0xC0, 0x03, 0x06] := by decide

theorem test_brk_v70 :
    result [0x00, 0xFF] (start 0x00 0x00 0x00 0x20 0xFD 0x8000 []) [0x1FB, 0x1FC, 0x1FD] =
      some [0x00, 0x00, 0x00, 0x24, 0xFA, 0xA0, 0x00, 0x07, 0x30, 0x02, 0x80] := by decide

theorem test_rti_v71 :
    result [0x40] (start 0x00 0x00 0x00 0x24 0xFA 0x8000 [(0x1FB, 0xC3), (0x1FC, 0x34), (0x1FD, 0x12)]) [] =
      some [0x00, 0x00, 0x00, 0xE3, 0xFD, 0x12, 0x34, 0x06] := by decide

theorem test_bpl_v83 :
    result [0x10, 0x01] (start 0x00 0x00 0x00 0x24 0xFD 0x80FD []) [] =
      some [0x00, 0x00, 0x00, 0x24, 0xFD, 0x81, 0x00, 0x04] := by decide

theorem test_bmi_v74 :
    result [0x30, 0x02] (start 0x00 0x00 0x00 0xA4 0xFD 0x8000 []) [] =
      some [0x00, 0x00, 0x00, 0xA4, 0xFD, 0x80, 0x04, 0x03] := by decide

theorem test_bvc_v75 :
    result [0x50, 0xFC] (start 0x00 0x00 0x00 0x24 0xFD 0xC000 []) [] =
      some [0x00, 0x00, 0x00, 0x24, 0xFD, 0xBF, 0xFE, 0x04] := by decide

theorem test_bvs_v76 :
    result [0x70, 0x10] (start 0x00 0x00 0x00 0x64 0xFD 0x8000 []) [] =
      some [0x00, 0x00, 0x00, 0x64, 0xFD, 0x80, 0x12, 0x03] := by decide

theorem test_bcc_v77 :
    result [0x90, 0x7F] (start 0x00 0x00 0x00 0x24 0xFD 0xC0F0 []) [] =
      some [0x00, 0x00, 0x00, 0x24, 0xFD, 0xC1, 0x71, 0x04] := by decide

theorem test_bcs_v78 :
    result [0xB0, 0x80] (start 0x00 0x00 0x00 0x25 0xFD 0xC010 []) [] =
      some [0x00, 0x00, 0x00, 0x25, 0xFD, 0xBF, 0x92, 0x04] := by decide

theorem test_bne_v79 :
    result [0xD0, 0xFE] (start 0x00 0x00 0x00 0x24 0xFD 0x8000 []) [] =
      some [0x00, 0x00, 0x00, 0x24, 0xFD, 0x80, 0x00, 0x03] := by decide

theorem test_beq_v80 :
    result [0xF0, 0x05] (start 0x00 0x00 0x00 0x26 0xFD 0x8000 []) [] =
      some [0x00, 0x00, 0x00, 0x26, 0xFD, 0x80, 0x07, 0x03] := by decide

theorem test_php_v84 :
    result [0x08] (start 0x00 0x00 0x00 0xA5 0xFD 0x8000 []) [0x1FD] =
      some [0x00, 0x00, 0x00, 0xA5, 0xFC, 0x80, 0x01, 0x03, 0xB5] := by decide

theorem test_pha_v16 :
    result [0x48] (start 0x77 0x00 0x00 0x24 0x00 0x8000 []) [0x100] =
      some [0x77, 0x00, 0x00, 0x24, 0xFF, 0x80, 0x01, 0x03, 0x77] := by decide

theorem test_plp_v86 :
    result [0x28] (start 0x00 0x00 0x00 0x24 0xFC 0x8000 [(0x1FD, 0xFF)]) [] =
      some [0x00, 0x00, 0x00, 0xEF, 0xFD, 0x80, 0x01, 0x04] := by decide

theorem test_pla_v17 :
    result [0x68] (start 0x00 0x00 0x00 0x24 0xFF 0x8000 [(0x100, 0x80)]) [] =
      some [0x80, 0x00, 0x00, 0xA4, 0x00, 0x80, 0x01, 0x04] := by decide

theorem test_clc_v89 :
    result [0x18] (start 0x00 0x00 0x00 0x25 0xFD 0x8000 []) [] =
      some [0x00, 0x00, 0x00, 0x24, 0xFD, 0x80, 0x01, 0x02] := by decide

theorem test_sec_v90 :
    result [0x38] (start 0x00 0x00 0x00 0x24 0xFD 0x8000 []) [] =
      some [0x00, 0x00, 0x00, 0x25, 0xFD, 0x80, 0x01, 0x02] := by decide

theorem test_cli_v91 :
    result [0x58] (start 0x00 0x00 0x00 0x24 0xFD 0x8000 []) [] =
      some [0x00, 0x00, 0x00, 0x20, 0xFD, 0x80, 0x01, 0x02] := by decide

theorem test_sei_v92 :
    result [0x78] (start 0x00 0x00 0x00 0x20 0xFD 0x8000 []) [] =
      some [0x00, 0x00, 0x00, 0x24, 0xFD, 0x80, 0x01, 0x02] := by decide

theorem test_cld_v93 :
    result [0xD8] (start 0x00 0x00 0x00 0x2C 0xFD 0x8000 []) [] =
      some [0x00, 0x00, 0x00, 0x24, 0xFD, 0x80, 0x01, 0x02] := by decide

theorem test_sed_v94 :
    result [0xF8] (start 0x00 0x00 0x00 0x24 0xFD 0x8000 []) [] =
      some [0x00, 0x00, 0x00, 0x2C, 0xFD, 0x80, 0x01, 0x02] := by decide

theorem test_clv_v95 :
    result [0xB8] (start 0x00 0x00 0x00 0x64 0xFD 0x8000 []) [] =
      some [0x00, 0x00, 0x00, 0x24, 0xFD, 0x80, 0x01, 0x02] := by decide

theorem test_tax_v96 :
    result [0xAA] (start 0x80 0x00 0x00 0x24 0xFD 0x8000 []) [] =
      some [0x80, 0x80, 0x00, 0xA4, 0xFD, 0x80, 0x01, 0x02] := by decide

theorem test_tay_v97 :
    result [0xA8] (start 0x00 0x00 0x10 0x24 0xFD 0x8000 []) [] =
      some [0x00, 0x00, 0x00, 0x26, 0xFD, 0x80, 0x01, 0x02] := by decide

theorem test_txa_v98 :
    result [0x8A] (start 0xFF 0x7F 0x00 0x24 0xFD 0x8000 []) [] =
      some [0x7F, 0x7F, 0x00, 0x24, 0xFD, 0x80, 0x01, 0x02] := by decide

theorem test_tya_v99 :
    result [0x98] (start 0x00 0x00 0xFF 0x24 0xFD 0x8000 []) [] =
      some [0xFF, 0x00, 0xFF, 0xA4, 0xFD, 0x80, 0x01, 0x02] := by decide

theorem test_tsx_v100 :
    result [0xBA] (start 0x00 0x00 0x00 0x24 0xFD 0x8000 []) [] =
      some [0x00, 0xFD, 0x00, 0xA4, 0xFD, 0x80, 0x01, 0x02] := by decide

theorem test_txs_v101 :
    result [0x9A] (start 0x00 0x00 0x00 0x24 0xFD 0x8000 []) [] =
      some [0x00, 0x00, 0x00, 0x24, 0x00, 0x80, 0x01, 0x02] := by decide

theorem test_nop_v102 :
    result [0xEA] (start 0x12 0x00 0x00 0xE7 0xFD 0x8000 []) [] =
      some [0x12, 0x00, 0x00, 0xE7, 0xFD, 0x80, 0x01, 0x02] := by decide

theorem test_slo_v121 :
    result [0x13, 0x40] (start 0x00 0x00 0x01 0x24 0xFD 0x8000 [(0x040, 0xFF), (0x041, 0x02), (0x300, 0x40)]) [0x300] =
      some [0x80, 0x00, 0x01, 0xA4, 0xFD, 0x80, 0x02, 0x08, 0x80] := by decide

theorem test_rla_v104 :
    result [0x27, 0x10] (start 0xFF 0x00 0x00 0x25 0xFD 0x8000 [(0x010, 0x80)]) [0x010] =
      some [0x01, 0x00, 0x00, 0x25, 0xFD, 0x80, 0x02, 0x05, 0x01] := by decide

theorem test_sre_v105 :
    result [0x47, 0x10] (start 0xFF 0x00 0x00 0x24 0xFD 0x8000 [(0x010, 0x03)]) [0x010] =
      some [0xFE, 0x00, 0x00, 0xA5, 0xFD, 0x80, 0x02, 0x05, 0x01] := by decide

theorem test_rra_v106 :
    result [0x67, 0x10] (start 0x01 0x00 0x00 0x25 0xFD 0x8000 [(0x010, 0x02)]) [0x010] =
      some [0x82, 0x00, 0x00, 0xA4, 0xFD, 0x80, 0x02, 0x05, 0x81] := by decide

theorem test_dcp_v107 :
    result [0xC7, 0x10] (start 0x40 0x00 0x00 0x24 0xFD 0x8000 [(0x010, 0x41)]) [0x010] =
      some [0x40, 0x00, 0x00, 0x27, 0xFD, 0x80, 0x02, 0x05, 0x40] := by decide

theorem test_isc_v108 :
    result [0xE7, 0x10] (start 0x20 0x00 0x00 0x25 0xFD 0x8000 [(0x010, 0x0F)]) [0x010] =
      some [0x10, 0x00, 0x00, 0x25, 0xFD, 0x80, 0x02, 0x05, 0x10] := by decide

theorem test_sax_v110 :
    result [0x97, 0xFF] (start 0xFF 0x0F 0x11 0x24 0xFD 0x8000 []) [0x010] =
      some [0xFF, 0x0F, 0x11, 0x24, 0xFD, 0x80, 0x02, 0x04, 0x0F] := by decide

theorem test_lax_v112 :
    result [0xB3, 0x40] (start 0x00 0x00 0x01 0x24 0xFD 0x8000 [(0x040, 0xFF), (0x041, 0x02), (0x300, 0x80)]) [] =
      some [0x80, 0x80, 0x01, 0xA4, 0xFD, 0x80, 0x02, 0x06] := by decide

theorem test_anc_v113 :
    result [0x0B, 0x80] (start 0xF0 0x00 0x00 0x24 0xFD 0x8000 []) [] =
      some [0x80, 0x00, 0x00, 0xA5, 0xFD, 0x80, 0x02, 0x02] := by decide

theorem test_alr_v115 :
    result [0x4B, 0x03] (start 0xFF 0x00 0x00 0x24 0xFD 0x8000 []) [] =
      some [0x01, 0x00, 0x00, 0x25, 0xFD, 0x80, 0x02, 0x02] := by decide

theorem test_sbc_unofficial_v116 :
    result [0xEB, 0xF0] (start 0x50 0x00 0x00 0x25 0xFD 0x8000 []) [] =
      some [0x60, 0x00, 0x00, 0x24, 0xFD, 0x80, 0x02, 0x02] := by decide

theorem test_nop_unofficial_v117 :
    result [0x1C, 0xFF, 0x02] (start 0x00 0x01 0x00 0x24 0xFD 0x8000 []) [] =
      some [0x00, 0x01, 0x00, 0x24, 0xFD, 0x80, 0x03, 0x05] := by decide

theorem test_undefined_v123 :
    result [0xAB, 0x12] (start 0x33 0x00 0x00 0x24 0xFD 0x8000 []) [] =
      some [0x33, 0x00, 0x00, 0x24, 0xFD, 0x80, 0x01, 0x01] := by decide

-- The machine around the instructions.

/-- The part of a next state that a test looks at. -/
def look {α : Type} (r : Result) (f : State → α) : Option α :=
  match r with
  | .next t => some (f t)
  | .fault _ | .refused _ => none

/-- *NOP $2002 makes no read: vblank stays set (46 R272). -/
theorem test_nop_makes_no_read :
    let s : State := { State.reset with ppu := { Ppu.initial with status := ⟨false, false, true⟩ } }
    look (exec (.nopAbs0C 0x2002) s) (fun t => t.ppu.status.vblank) = some true
      ∧ look (exec (.ldaAbs 0x2002) s) (fun t => (t.cpu.a, t.ppu.status.vblank)) = some (0x80, false) := by decide

/-- STA $4014 starts a DMA: 513 ticks at an even count, 514 at an odd one (D1, D2). -/
theorem test_dma_start :
    let s : State := { State.reset with cpu := { Cpu.initial 0 with a := 2, cycleCount := 12 } }
    look (exec (.staAbs 0x4014) s) (fun t => (t.cpu.dmaPage, t.cpu.dmaRemaining)) = some (2, 513)
      ∧ look (exec (.staAbs 0x4014) { s with cpu := { s.cpu with cycleCount := 9 } }) (fun t => t.cpu.dmaRemaining) =
        some 514 := by decide

/-- NMI entry (60 R350's example, N2). -/
theorem test_nmi_entry :
    let s : State :=
      { start 0 0 0 0xA5 0xFD 0xC123 [] with cart := { Cart.blank with prgRom := [(0x3FFB, 0x90)] } }
    let t := nmiEntry { s with cpu := { s.cpu with nmiPending := true } }
    [0x1FD, 0x1FC, 0x1FB].map t.wram.read = [0xC1, 0x23, 0xA5] ∧ t.cpu.s = 0xFA ∧ t.cpu.p = 0xA5 ∧ t.cpu.pc = 0x9000
      ∧ t.cpu.nmiPending = false ∧ t.cpu.cyclesUntilNext = 7 := by decide

/-- A CPU reset (R1, R2). -/
theorem test_cpu_reset :
    let s : State := { start 0x12 0 0 0x20 0xFD 0x8000 [] with cart := { Cart.blank with prgRom := [(0x3FFD, 0xC0)] } }
    let t := cpuReset { s with cpu := { s.cpu with cycleCount := 1000, dmaRemaining := 300, nmiPending := true } }
    t.cpu.s = 0xFA ∧ t.cpu.p = 0x24 ∧ t.cpu.pc = 0xC000 ∧ t.cpu.a = 0x12 ∧ t.cpu.cycleCount = 1000
      ∧ t.cpu.cyclesUntilNext = 7 ∧ t.cpu.dmaRemaining = 0 ∧ t.cpu.nmiPending = false := by decide

/-- Ten reads of $4016 after a strobe, with A and Start committed (K1). -/
theorem test_controller_reads :
    let s : State := { State.reset with pads := { Pads.initial with committed1 := 0x09 } }
    let t := memWrite (memWrite s 0x4016 1) 0x4016 0
    (List.range 10).map (fun n => peek (readTimes 0x4016 n t) 0x4016) =
      [0x41, 0x40, 0x40, 0x41, 0x40, 0x40, 0x40, 0x40, 0x41, 0x41] := by decide

/-- A PRG-ROM whose bank b holds b at offset 0 (95 section 2.10). -/
def markedBanks (n : Nat) : Memory := ((List.range n).map fun b => (0x4000 * b, BitVec.ofNat 8 b)).tail

/-- A cartridge of `n` marked banks. -/
def marked (m : Mapper) (n : Nat) : State :=
  { State.reset with cart := { Cart.blank with mapper := m, prgBanks16 := n, prgRom := markedBanks n } }

/-- Five serial writes of the low bits of `v`, the lowest first. -/
def serial (s : State) (a : Addr) (v : Byte) : State :=
  (List.range 5).foldl (fun s k => memWrite s a (v >>> k &&& 1)) s

/-- MMC1 in its three PRG modes (C3, C4, C5, C6). -/
theorem test_mmc1_prg_modes :
    let s := marked .mmc1 8
    (peek s 0x8000, peek s 0xC000) = (0, 7)
      ∧ (peek (serial s 0xE000 3) 0x8000, peek (serial s 0xE000 3) 0xC000) = (3, 7)
      ∧ (let t := serial (serial s 0x8000 0x08) 0xE000 5; (peek t 0x8000, peek t 0xC000) = (0, 5))
      ∧ (let t := serial (serial s 0x8000 0x00) 0xE000 5; (peek t 0x8000, peek t 0xC000) = (4, 5)) := by decide

/-- The MMC1 reset write drops a partial load (C9), and the fifth address alone selects the register (C10). -/
theorem test_mmc1_serial :
    let s := marked .mmc1 8
    let t := memWrite (memWrite (memWrite s 0x8000 1) 0x8000 1) 0x8000 0x80
    t.cart.mmc1.shift = 0x10 ∧ (serial t 0xE000 3).cart.mmc1.prgBank = 3
      ∧ (let u := [0x8000, 0x8000, 0x8000, 0x8000, 0xE000].foldl (fun s a => memWrite s a 1) s
         u.cart.mmc1.prgBank = 15 ∧ u.cart.mmc1.mirroring = .horizontal) := by decide

/-- MMC1 CHR banks (C11, C12) and CNROM's (C15, C16). -/
theorem test_chr_offsets :
    let c : Cart := { Cart.blank with mapper := .mmc1, chrIsRam := false, chrBanks8 := 4 }
    let two : Cart := { c with mmc1 := { c.mmc1 with chrMode := .two4, chr0 := 2, chr1 := 5 } }
    let one : Cart := { c with mmc1 := { c.mmc1 with chr0 := 3 } }
    (two.chrOffset 0, two.chrOffset 0x1000, one.chrOffset 0, one.chrOffset 0x1000) = (0x2000, 0x5000, 0x2000, 0x3000)
      ∧ ({ c with mapper := .cnrom, cnromBank := 2 } : Cart).chrOffset 0 = 0x4000
      ∧ ({ c with mapper := .cnrom, cnromBank := 6 } : Cart).chrOffset 0 = 0x4000 := by decide

/-- UxROM (C13, C14) and NROM with one bank (C1). -/
theorem test_uxrom_nrom :
    let t := memWrite (marked .uxrom 8) 0x8000 3
    (peek t 0x8000, peek t 0xC000, peek (memWrite t 0x8000 9) 0x8000) = (3, 7, 1)
      ∧ (marked .nrom 1).cart.prgOffset 0xFFFC = 0x3FFC := by decide

/-- Refused images (C17, C18, C19): a zero PRG size, mapper 4, a short body. -/
theorem test_refused_images :
    let image := fun n m f6 : Byte => [0x4E, 0x45, 0x53, 0x1A, n, m, f6, 0, 0, 0, 0, 0, 0, 0, 0, 0]
    (match Cart.ofINes (image 0 0 0) with | .error e => some e | .ok _ => none) = some .invalidInesHeader
      ∧ (match Cart.ofINes (image 1 0 0x40) with | .error e => some e | .ok _ => none) = some (.unsupportedMapper 4)
      ∧ (match Cart.ofINes (image 2 1 0) with | .error e => some e | .ok _ => none) = some .io := by decide

/-- A run of CPU writes. -/
def writes (s : State) (ws : List (Addr × Byte)) : State := ws.foldl (fun s w => memWrite s w.1 w.2) s

/-- PPUCTRL, PPUSCROLL and PPUADDR (P1, P3, P5, P6). -/
theorem test_ppu_scroll_registers :
    (writes State.reset [(0x2000, 0x93)]).ppu.t = 0x0C00
      ∧ (let p := (writes State.reset [(0x2005, 0x7D), (0x2005, 0x5E)]).ppu; (p.x, p.t, p.w) = (5, 0x616F, false))
      ∧ (let p := (writes State.reset [(0x2006, 0x21), (0x2006, 0x08)]).ppu; (p.t, p.v) = (0x2108, 0x2108))
      ∧ (writes State.reset [(0x2006, 0xFF), (0x2006, 0xFF)]).ppu.v = 0x3FFF := by decide

/-- PPUDATA writes, then buffered reads (P7, P8), and a palette read with its buffer (P10, P11). -/
theorem test_ppu_data :
    let s := writes State.reset [(0x2006, 0x20), (0x2006, 0), (0x2007, 0xAA), (0x2007, 0xBB), (0x2006, 0x20), (0x2006, 0)]
    (let r1 := memRead s 0x2007; let r2 := memRead r1.2 0x2007; let r3 := memRead r2.2 0x2007
     (r1.1, r2.1, r3.1, r3.2.ppu.v) = (0, 0xAA, 0xBB, 0x2003))
      ∧ (let t := writes State.reset
           [(0x2006, 0x2F), (0x2006, 0), (0x2007, 0x5B), (0x2006, 0x3F), (0x2006, 0x10), (0x2007, 0x2A), (0x2006, 0x3F),
            (0x2006, 0)]
         ((memRead t 0x2007).1, (memRead t 0x2007).2.ppu.readBuffer) = (0x2A, 0x5B)) := by decide

/-- The scroll increments (S1 to S8a). -/
theorem test_scroll_increments :
    [0x0005, 0x001F, 0x041F].map incrementX = [0x0006, 0x0400, 0x0000]
      ∧ [0x0000, 0x7000, 0x73A0, 0x7BA0, 0x73E0, 0x73C0].map incrementY =
        [0x1000, 0x0020, 0x0800, 0x0000, 0x0000, 0x03E0] := by decide

/-- The background fetch addresses (F1 to F5). -/
theorem test_fetch_addresses :
    (tileAddr 0x0FBF, attrAddr 0x0FBF, attrShift 0x0FBF) = (0x2FBF, 0x2FFF, 2)
      ∧ (attrAddr 0x0042, attrShift 0x0042) = (0x23C0, 6) ∧ (attrAddr 0x0463, attrShift 0x0463) = (0x27C0, 6)
      ∧ ({ Ppu.initial with latTile := 0x41, v := 0x5000 } : Ppu).patternAddr = 0x0415 := by decide

/-- The sprite pattern addresses (F6, F7, F8). -/
theorem test_sprite_addresses :
    let p : Ppu := { Ppu.initial with ctrl := { Ppu.initial.ctrl with sprTable := true } }
    let q : Ppu := { Ppu.initial with ctrl := { Ppu.initial.ctrl with spr16 := true } }
    p.spritePatternAddr 0x25 3 = 0x1253 ∧ q.spritePatternAddr 0x25 10 = 0x1252 ∧ q.spritePatternAddr 0x24 12 = 0x0254 := by
  decide

/-- Pixel priority (S16 to S19). -/
theorem test_pixel_priority :
    pixelAddr 0 3 ⟨2, 1, false, false⟩ = 0x3F16 ∧ pixelAddr 3 2 ⟨1, 0, true, false⟩ = 0x3F0B
      ∧ pixelAddr 3 2 ⟨1, 0, false, false⟩ = 0x3F11 ∧ pixelAddr 0 1 SpritePixel.none = 0x3F00 := by decide

/-- Nine records on one line (S14). -/
def nineSprites : Ppu :=
  { Ppu.initial with
    oam := (List.range 64).map fun i => (4 * i, if i < 9 then 20 else 0xFF)
    mask := { Ppu.initial.mask with showBg := true }
    scanline := 20, dot := 65 }

set_option maxRecDepth 4000 in
/-- Sprite evaluation copies eight of nine records and sets overflow (S14). -/
theorem test_sprite_evaluation :
    let t := nineSprites.evaluateSprites 20
    (t.oam2Count, t.status.sprOverflow, t.sprite0InSecondary, t.oam2Byte 7 0) = (8, true, true, 20) := by rfl

/-- The odd-frame skip and the end of a frame (E2). -/
theorem test_advance :
    let p : Ppu := { Ppu.initial with dot := 339, frame := 1, mask := { Ppu.initial.mask with showSpr := true } }
    ((p.advance.scanline, p.advance.dot) = (0, 0))
      ∧ (({ p with frame := 0 } : Ppu).advance.dot = 340)
      ∧ (let q := ({ p with scanline := 260, dot := 340 } : Ppu).advance
         (q.scanline, q.dot, q.frame, q.frameReady) = (-1, 0, 2, true)) := by decide

-- Witnesses: for each statement with hypotheses, states and operands that meet them, at the boundaries of each clause.

theorem witness_EncodeAfterDecode :
    decode [0xA9, 0x42, 0x00] = .ok (.ldaImm 0x42, [0x00]) ∧ (opInfo 0xAD).bytes ≤ [0x34, 0x02].length + 1
      ∧ (opInfo 0xE8).bytes ≤ ([] : List Byte).length + 1 := ⟨rfl, by decide, by decide⟩

/-- A machine at an instruction boundary, between frames, with a three-byte instruction at PC. -/
def atInstruction : State := State.reset.withFetchWord 24 0x03008D

theorem witness_StepRunsTheDecodedInstruction :
    let t := threeDots (openFrame atInstruction)
    let r0 := memRead t t.cpu.pc
    let r1 := memRead r0.2 (t.cpu.pc + 1)
    let r2 := memRead r1.2 (t.cpu.pc + 2)
    t.cpu.dmaRemaining = 0 ∧ t.cpu.cyclesUntilNext.toInt ≤ 0 ∧ t.cpu.nmiPending = false
      ∧ decode [r0.1, r1.1, r2.1] = .ok (.staAbs 0x0300, []) := ⟨by decide, by decide, by decide, rfl⟩

set_option synthInstance.maxSize 1000 in
theorem witness_EveryStepKeepsTheInvariant :
    State.reset.Inv ∧ ∃ t, step State.reset = .next t := ⟨by decide, _, rfl⟩

theorem witness_ticks :
    (∃ t, cpuTick State.reset = .next t) ∧ (∃ t, cpuTick atInstruction = .next t)
      ∧ ∃ t, cpuTick { atInstruction with cart := { atInstruction.cart with chrIsRam := false } } = .next t :=
  ⟨⟨_, rfl⟩, ⟨_, rfl⟩, ⟨_, rfl⟩⟩

set_option synthInstance.maxSize 1000 in
/-- A machine from which a frame is called. -/
theorem witness_NoStepStops : State.reset.Inv ∧ State.reset.port.betweenFrames = true ∧ ∃ t, step State.reset = .next t :=
  ⟨by decide, rfl, _, rfl⟩

theorem witness_OnlyNamedInstructionsWriteAFlag :
    (∀ f, Instr.mnemonic .nop ∉ flagWriters f) ∧ Instr.mnemonic (.ldaImm 0) ∉ flagWriters .c
      ∧ (∃ t, exec .nop State.reset = .next t) ∧ ∃ t, exec (.ldaImm 0) State.reset = .next t :=
  ⟨fun f => by cases f <;> decide, by decide, ⟨_, rfl⟩, ⟨_, rfl⟩⟩

theorem witness_OnlyNamedInstructionsWriteARegister :
    ¬ WritesA (.aslZp 0x10) ∧ ¬ WritesA .txs
      ∧ Instr.mnemonic .txs ∉ [Mnemonic.ldx, .inx, .dex, .tax, .tsx, .lax]
      ∧ Instr.mnemonic .txs ∉ [Mnemonic.ldy, .iny, .dey, .tay]
      ∧ Instr.mnemonic (.aslZp 0x10) ∉ [Mnemonic.txs, .php, .pha, .plp, .pla, .jsr, .rts, .brk, .rti]
      ∧ Instr.mnemonic .txs ∉ [Mnemonic.jmp, .jsr, .rts, .brk, .rti] ∧ (Instr.info .txs).penalty ≠ .branch
      ∧ ¬ (Stores (.staAbs 0x4013) ∧ eaOf (.staAbs 0x4013) State.reset = 0x4014)
      ∧ (∃ t, exec (.aslZp 0x10) State.reset = .next t) ∧ ∃ t, exec (.staAbs 0x4013) State.reset = .next t := by
  refine ⟨by unfold WritesA; decide, by unfold WritesA; decide, by decide, by decide, by decide, by decide, by decide, ?_,
    ⟨_, rfl⟩, ⟨_, rfl⟩⟩
  exact fun h => absurd h.2 (by decide)

theorem witness_DecimalFlagIsNeverRead :
    Instr.mnemonic (.adcImm 0x19) ∉ [Mnemonic.cld, .sed, .plp, .rti, .php, .brk]
      ∧ ∃ t, exec (.adcImm 0x19) (State.reset.setFlag .d false) = .next t := ⟨by decide, _, rfl⟩

theorem witness_AddressingModes :
    (Operand.imp = .imp ∨ Operand.imp = .acc ∨ Operand.imp = .imp1)
      ∧ Operand.indY 0xFF ∈ [Operand.zp 0xFF, .zpX 0xFF, .zpY 0xFF, .abs 0, .absX 0, .absY 0, .indX 0xFF, .indY 0xFF] := by
  decide

/-- A form of every list of forms of the documented instructions, with operands at the ends of their ranges. -/
theorem witness_forms :
    (⟨.ldaAbsX 0xFFFF, 0xBD, .absX 0xFFFF, 3, 4, true⟩ : Form) ∈ ldaForms 0x80 0xFF 0xFFFF
      ∧ (⟨.ldxAbs 0xFFFF, 0xAE, .abs 0xFFFF, 3, 4, false⟩ : Form) ∈ ldxForms 0x80 0xFF 0xFFFF
      ∧ (⟨.ldyImm 0x80, 0xA0, .imm 0x80, 2, 2, false⟩ : Form) ∈ ldyForms 0x80 0xFF 0xFFFF
      ∧ (⟨.staZp 0xFF, 0x85, .zp 0xFF, 2, 3, false⟩ : Form) ∈ staForms 0x80 0xFF 0xFFFF
      ∧ (⟨.stxZpY 0xFF, 0x96, .zpY 0xFF, 2, 4, false⟩ : Form) ∈ stxForms 0x80 0xFF 0xFFFF
      ∧ (⟨.styZpX 0xFF, 0x94, .zpX 0xFF, 2, 4, false⟩ : Form) ∈ styForms 0x80 0xFF 0xFFFF
      ∧ (⟨.adcZp 0xFF, 0x65, .zp 0xFF, 2, 3, false⟩ : Form) ∈ adcForms 0x80 0xFF 0xFFFF
      ∧ (⟨.sbcIndY 0xFF, 0xF1, .indY 0xFF, 2, 5, true⟩ : Form) ∈ sbcForms 0x80 0xFF 0xFFFF
      ∧ (⟨.cmpAbsX 0xFFFF, 0xDD, .absX 0xFFFF, 3, 4, true⟩ : Form) ∈ cmpForms 0x80 0xFF 0xFFFF
      ∧ (⟨.cpxAbs 0xFFFF, 0xEC, .abs 0xFFFF, 3, 4, false⟩ : Form) ∈ cpxForms 0x80 0xFF 0xFFFF
      ∧ (⟨.cpyAbs 0xFFFF, 0xCC, .abs 0xFFFF, 3, 4, false⟩ : Form) ∈ cpyForms 0x80 0xFF 0xFFFF
      ∧ (⟨.incZp 0xFF, 0xE6, .zp 0xFF, 2, 5, false⟩ : Form) ∈ incForms 0x80 0xFF 0xFFFF
      ∧ (⟨.decAbsX 0xFFFF, 0xDE, .absX 0xFFFF, 3, 7, false⟩ : Form) ∈ decForms 0x80 0xFF 0xFFFF
      ∧ (⟨.andAbsY 0xFFFF, 0x39, .absY 0xFFFF, 3, 4, true⟩ : Form) ∈ andForms 0x80 0xFF 0xFFFF
      ∧ (⟨.eorZp 0xFF, 0x45, .zp 0xFF, 2, 3, false⟩ : Form) ∈ eorForms 0x80 0xFF 0xFFFF
      ∧ (⟨.oraIndY 0xFF, 0x11, .indY 0xFF, 2, 5, true⟩ : Form) ∈ oraForms 0x80 0xFF 0xFFFF
      ∧ (⟨.aslAbs 0xFFFF, 0x0E, .abs 0xFFFF, 3, 6, false⟩ : Form) ∈ aslForms 0x80 0xFF 0xFFFF
      ∧ (⟨.lsrZp 0xFF, 0x46, .zp 0xFF, 2, 5, false⟩ : Form) ∈ lsrForms 0x80 0xFF 0xFFFF
      ∧ (⟨.rolZpX 0xFF, 0x36, .zpX 0xFF, 2, 6, false⟩ : Form) ∈ rolForms 0x80 0xFF 0xFFFF
      ∧ (⟨.rorAcc, 0x6A, .acc, 1, 2, false⟩ : Form) ∈ rorForms 0x80 0xFF 0xFFFF
      ∧ (⟨.bitAbs 0xFFFF, 0x2C, .abs 0xFFFF, 3, 4, false⟩ : Form) ∈ bitForms 0x80 0xFF 0xFFFF :=
  ⟨List.mem_of_getElem? (i := 7) rfl, List.mem_of_getElem? (i := 2) rfl, List.mem_of_getElem? (i := 0) rfl,
    List.mem_of_getElem? (i := 1) rfl, List.mem_of_getElem? (i := 2) rfl, List.mem_of_getElem? (i := 2) rfl,
    List.mem_of_getElem? (i := 1) rfl, List.mem_of_getElem? (i := 4) rfl, List.mem_of_getElem? (i := 7) rfl,
    List.mem_of_getElem? (i := 2) rfl, List.mem_of_getElem? (i := 2) rfl, List.mem_of_getElem? (i := 0) rfl,
    List.mem_of_getElem? (i := 3) rfl, List.mem_of_getElem? (i := 6) rfl, List.mem_of_getElem? (i := 1) rfl,
    List.mem_of_getElem? (i := 4) rfl, List.mem_of_getElem? (i := 2) rfl, List.mem_of_getElem? (i := 0) rfl,
    List.mem_of_getElem? (i := 3) rfl, List.mem_of_getElem? (i := 1) rfl, List.mem_of_getElem? (i := 1) rfl⟩

/-- A form of every list of forms of the unofficial instructions. -/
theorem witness_unofficial_forms :
    (⟨.sloAbsX 0xFFFF, 0x1F, .absX 0xFFFF, 3, 7, false⟩ : Form) ∈ sloForms 0x80 0xFF 0xFFFF
      ∧ (⟨.rlaAbs 0xFFFF, 0x2F, .abs 0xFFFF, 3, 6, false⟩ : Form) ∈ rlaForms 0x80 0xFF 0xFFFF
      ∧ (⟨.sreAbsY 0xFFFF, 0x5B, .absY 0xFFFF, 3, 7, false⟩ : Form) ∈ sreForms 0x80 0xFF 0xFFFF
      ∧ (⟨.rraZp 0xFF, 0x67, .zp 0xFF, 2, 5, false⟩ : Form) ∈ rraForms 0x80 0xFF 0xFFFF
      ∧ (⟨.dcpZpX 0xFF, 0xD7, .zpX 0xFF, 2, 6, false⟩ : Form) ∈ dcpForms 0x80 0xFF 0xFFFF
      ∧ (⟨.iscIndX 0xFF, 0xE3, .indX 0xFF, 2, 8, false⟩ : Form) ∈ iscForms 0x80 0xFF 0xFFFF
      ∧ (⟨.saxIndX 0xFF, 0x83, .indX 0xFF, 2, 6, false⟩ : Form) ∈ saxForms 0x80 0xFF 0xFFFF
      ∧ (⟨.laxAbsY 0xFFFF, 0xBF, .absY 0xFFFF, 3, 4, true⟩ : Form) ∈ laxForms 0x80 0xFF 0xFFFF
      ∧ (⟨.ancImm0B 0x80, 0x0B, .imm 0x80, 2, 2, false⟩ : Form) ∈ ancForms 0x80 0xFF 0xFFFF
      ∧ (⟨.alrImm 0x80, 0x4B, .imm 0x80, 2, 2, false⟩ : Form) ∈ alrForms 0x80 0xFF 0xFFFF
      ∧ (⟨.sbcImmEB 0x80, 0xEB, .imm 0x80, 2, 2, false⟩ : Form) ∈ sbcUForms 0x80 0xFF 0xFFFF
      ∧ (⟨.nopImp7A, 0x7A, .imp, 1, 2, false⟩ : Form) ∈ nopUForms 0x80 0xFF 0xFFFF :=
  ⟨List.mem_of_getElem? (i := 6) rfl, List.mem_of_getElem? (i := 2) rfl, List.mem_of_getElem? (i := 5) rfl,
    List.mem_of_getElem? (i := 1) rfl, List.mem_of_getElem? (i := 4) rfl, List.mem_of_getElem? (i := 0) rfl,
    List.mem_of_getElem? (i := 0) rfl, List.mem_of_getElem? (i := 5) rfl, List.mem_of_getElem? (i := 0) rfl,
    List.mem_of_getElem? (i := 0) rfl, List.mem_of_getElem? (i := 0) rfl, List.mem_of_getElem? (i := 14) rfl⟩

theorem witness_NonStoringInstructionsKeepMemory :
    ¬ Stores .pha ∧ (∃ t, exec .pha State.reset = .next t) ∧ pushesAt .pha State.reset = [0x1FD]
      ∧ 0x1FC ∉ pushesAt .pha State.reset ∧ ReadsQuietly .pha State.reset ∧ ReadsQuietly (.ldaAbs 0x1FFF) State.reset
      ∧ ReadsQuietly (.ldaAbs 0x2001) State.reset ∧ ReadsQuietly (.jmpInd 0x1FFF) State.reset
      ∧ ¬ ReadsQuietly (.ldaAbs 0x2002) State.reset ∧ ¬ Stores (.aslAcc) := by
  have lda : ∀ w, (Instr.ldaAbs w).mnemonic = .lda := fun _ => (by decide : (opInfo 0xAD).mnemonic = .lda)
  have pha : Instr.mnemonic .pha = .pha := rfl
  have jmp : ∀ w, (Instr.jmpInd w).mnemonic = .jmp := fun _ => (by decide : (opInfo 0x6C).mnemonic = .jmp)
  refine ⟨by unfold Stores; decide, ⟨_, rfl⟩, by decide, by decide, ?_, ?_, ?_, ?_, ?_, by unfold Stores; decide⟩ <;>
    simp [ReadsQuietly, loadsAt, pointerAt, lda, pha, jmp, Instr.operand, eaOf, resolve, State.setLatent,
      readHasSideEffect]

/-- One address on each side of every boundary between the clauses. -/
def storeAddresses : List Addr :=
  [0x0000, 0x1FFF, 0x2000, 0x3FFF, 0x4000, 0x4014, 0x4015, 0x4016, 0x4017, 0x4018, 0x5FFF, 0x6000, 0x7FFF, 0x8000, 0xFFFF]

theorem witness_StoringInstructionsChangeOnlyTheirCell :
    ∀ a ∈ storeAddresses, Stores (.staAbs a) ∧ eaOf (.staAbs a) State.reset = a
      ∧ ∃ t, exec (.staAbs a) State.reset = .next t :=
  have mem : ∀ a, (Instr.staAbs a).mnemonic ∈ storing := fun a => by
    exact (by decide : (opInfo 0x8D).mnemonic ∈ storing)
  fun a _ => ⟨⟨mem a, by simp [Instr.operand]⟩, rfl, _, rfl⟩

/-- The first and last address of each clause over the CPU's address space. -/
theorem witness_addresses :
    (0x1FFF#16).toNat < 0x2000 ∧ 0x2000 ≤ (0x2000#16).toNat ∧ (0x3FFF#16).toNat < 0x4000 ∧ 0x4020 ≤ (0x4020#16).toNat
      ∧ 0x4020 ≤ (0xFFFF#16).toNat ∧ (0x4000 ≤ (0x4000#16).toNat ∧ (0x4000#16).toNat < 0x4020)
      ∧ (0x4000 ≤ (0x401F#16).toNat ∧ (0x401F#16).toNat < 0x4020) ∧ 0x6000 ≤ (0x6000#16).toNat
      ∧ (0x7FFF#16).toNat < 0x8000 ∧ (0x5FFF#16).toNat < 0x6000 ∧ 0x8000 ≤ (0x8000#16).toNat := by decide

theorem witness_OnlyNamedReadsHaveSideEffects :
    ∀ a ∈ [0x0000#16, 0x1FFF, 0x2000, 0x2004, 0x3FFE, 0x4015, 0x4018, 0xFFFF],
      ¬ (0x2000 ≤ a.toNat ∧ a.toNat < 0x4000 ∧ (a.toNat % 8 = 2 ∨ a.toNat % 8 = 7)) ∧ a ≠ 0x4016 ∧ a ≠ 0x4017 := by simp

theorem witness_MemoryReadsBackWhatWasWritten :
    State.reset.cart.prgRamPresent = false
      ∧ ({ Cart.blank with prgRamPresent := true } : Cart).prgRamPresent = true
      ∧ ∀ a ∈ [0x4000#16, 0x4013, 0x4015, 0x4017, 0x5FFF],
          0x4000 ≤ a.toNat ∧ a.toNat < 0x6000 ∧ a ≠ 0x4014 ∧ a ≠ 0x4016 := by
  simp [State.reset, Cart.blank]

/-- Bit 0 of bytes whose other bits are all set and all clear, and the strobe before and after a write of the first. -/
theorem witness_ControllersShiftOutTheCommittedButtons :
    (0xFF#8).getLsbD 0 = true ∧ (0x01#8).getLsbD 0 = true ∧ (0xFE#8).getLsbD 0 = false ∧ (0x00#8).getLsbD 0 = false
      ∧ State.reset.pads.strobe = false ∧ (memWrite State.reset 0x4016 0xFF).pads.strobe = true := by decide

/-- Without a fall of the strobe nothing is latched (K2, and 20 R79), whatever the other bits; a read of one port leaves the other (20 R80). -/
theorem test_strobe_edges :
    let s : State := { State.reset with pads := { Pads.initial with committed1 := 0x09, shift1 := 0x55 } }
    (memWrite s 0x4016 0xFE).pads.shift1 = 0x55 ∧ (memWrite s 0x4016 0xFF).pads.shift1 = 0x55
      ∧ (memWrite (memWrite s 0x4016 0xFF) 0x4016 0x01).pads.shift1 = 0x55
      ∧ (memWrite (memWrite s 0x4016 0xFF) 0x4016 0xFE).pads.shift1 = 0x09
      ∧ (memRead s 0x4017).2.pads.shift1 = 0x55 := by decide

/-- A machine in a DMA of page 2. -/
def inDma (n : Nat) : State := { State.reset with cpu := { Cpu.initial 0 with dmaPage := 2, dmaRemaining := n } }

theorem witness_OamDmaCopiesAPage :
    (inDma 513).cpu.dmaRemaining = 513 ∧ (inDma 514).cpu.dmaRemaining = 514
      ∧ ∀ i < 256, readHasSideEffect (w16 (inDma 513).cpu.dmaPage (BitVec.ofNat 8 i)) = false := by
  refine ⟨rfl, rfl, fun i _ => ?_⟩
  have h : (w16 2 (BitVec.ofNat 8 i)).toNat < 0x2000 := by
    rw [toNat_w16]; simp; omega
  exact quiet_wram h

theorem witness_NmiIsTakenAtAnInstructionBoundary :
    let s : State := { State.reset with cpu := { Cpu.initial 0 with cyclesUntilNext := 0, nmiPending := true } }
    s.cpu.dmaRemaining = 0 ∧ s.cpu.cyclesUntilNext.toInt ≤ 0 ∧ s.cpu.nmiPending = true := by decide

theorem witness_DmaFirstAndInstructionsAreNotInterrupted :
    0 < (inDma 1).cpu.dmaRemaining ∧ 0 < (inDma 514).cpu.dmaRemaining ∧ State.reset.cpu.dmaRemaining = 0
      ∧ 0 < State.reset.cpu.cyclesUntilNext.toInt
      ∧ 0 < ({ Cpu.initial 0 with cyclesUntilNext := 1 } : Cpu).cyclesUntilNext.toInt := by decide

/-- The state right after each entry, and one in which the handler has changed A, X and a byte of work RAM besides. -/
theorem witness_ReturnsUndoEntries :
    let handled := fun s : State => { s with cpu := { s.cpu with a := 0x12, x := 0x34 }, wram := s.wram.write 0x10 0x56 }
    let n := nmiEntry State.reset
    (SameStack 3 n n ∧ SameBreakBits State.reset n)
      ∧ (SameStack 3 n (handled n) ∧ SameBreakBits State.reset (handled n))
      ∧ (∃ u, exec .brk State.reset = .next u ∧ SameStack 3 u (handled u) ∧ SameBreakBits State.reset (handled u))
      ∧ ∃ u, exec (.jsrAbs 0xD000) State.reset = .next u ∧ SameStack 2 u (handled u) := by
  have three : ∀ {k : Nat}, 1 ≤ k → k ≤ 3 → k = 1 ∨ k = 2 ∨ k = 3 := by omega
  have two : ∀ {k : Nat}, 1 ≤ k → k ≤ 2 → k = 1 ∨ k = 2 := by omega
  refine ⟨⟨⟨rfl, fun _ _ _ => rfl⟩, rfl, rfl⟩, ⟨⟨rfl, ?_⟩, rfl, rfl⟩, ⟨_, rfl, ⟨rfl, ?_⟩, rfl, rfl⟩, ⟨_, rfl, rfl, ?_⟩⟩
  · intro k h1 h3; obtain rfl | rfl | rfl := three h1 h3 <;> rfl
  · intro k h1 h3; obtain rfl | rfl | rfl := three h1 h3 <;> rfl
  · intro k h1 h2; obtain rfl | rfl := two h1 h2 <;> rfl

/-- Every PPU register at its first and at its last mirror. -/
theorem witness_IsRegister :
    ∀ r < 8, IsRegister (BitVec.ofNat 16 (0x2000 + r)) r ∧ IsRegister (BitVec.ofNat 16 (0x3FF8 + r)) r := by
  simp only [IsRegister]; decide

theorem witness_PpuScrollAndAddressWrites :
    State.reset.ppu.w = false ∧ (memWrite State.reset 0x2005 0).ppu.w = true := by decide

/-- The ends of the pattern tables on the PPU bus, the last one by its mirror at $5FFF too, with CHR-RAM and with CHR-ROM. -/
theorem witness_PpuDataPort :
    (∀ a ∈ [0x0000#16, 0x1FFF, 0x4000, 0x5FFF], a.toNat % 0x4000 < 0x2000) ∧ Cart.blank.chrIsRam = true
      ∧ ({ Cart.blank with chrIsRam := false } : Cart).chrIsRam = false := by
  refine ⟨by simp, rfl, rfl⟩

theorem witness_NametableMirroring :
    ∀ a ∈ [0x2000#16, 0x2FFF, 0x3000, 0x3EFF], 0x2000 ≤ a.toNat ∧ a.toNat < 0x3F00 := by simp

theorem witness_PaletteMirroring : ∀ i ∈ [0x00, 0x10, 0x1F, 0x20, 0x30, 0xFF], i < 256 := by decide

/-- A machine whose PPU is at a dot, with the background shown or not. -/
def atDot (l : Int) (d : Nat) (v : BitVec 15) (shown : Bool) : State :=
  { State.reset with
    ppu := { Ppu.initial with scanline := l, dot := d, v := v, mask := { Ppu.initial.mask with showBg := shown } } }

theorem witness_VerticalIncrement :
    (∀ l ∈ [(-1 : Int), 0, 239], ∀ v ∈ [0x0000#15, 0x6000, 0x73A0, 0x73C0, 0x73E0],
        OnRenderingLine (atDot l 256 v true).ppu ∧ (atDot l 256 v true).ppu.dot = 256
          ∧ ((atDot l 256 v true).ppu.mask.showBg = true ∨ (atDot l 256 v true).ppu.mask.showSpr = true))
      ∧ (∀ d ∈ [8, 248, 256, 328, 336], OnRenderingLine (atDot 239 d 0x001F true).ppu
          ∧ OnFetchDot (atDot 239 d 0x001F true).ppu ∧ (atDot 239 d 0x001F true).ppu.dot % 8 = 0)
      ∧ (∀ d ∈ [0, 1, 7, 255, 258, 320, 337, 340], ¬ (OnFetchDot (atDot 0 d 0 true).ppu
          ∧ (atDot 0 d 0 true).ppu.dot % 8 = 0) ∧ (atDot 0 d 0 true).ppu.dot ≠ 257)
      ∧ (∀ d ∈ [279, 305], ¬ (280 ≤ (atDot (-1) d 0 true).ppu.dot ∧ (atDot (-1) d 0 true).ppu.dot ≤ 304))
      ∧ ¬ OnRenderingLine (atDot 240 256 0 true).ppu
      ∧ (atDot 239 256 0 false).ppu.mask.showBg = false ∧ (atDot 239 256 0 false).ppu.mask.showSpr = false
      ∧ (0x001F#15).toNat % 32 = 31 ∧ (0x001E#15).toNat % 32 ≠ 31
      ∧ (0x6000#15).toNat / 4096 < 7 ∧ (0x73A0#15).toNat / 4096 = 7 ∧ (0x73A0#15).toNat / 32 % 32 = 29
      ∧ (0x73E0#15).toNat / 32 % 32 = 31 := by
  simp [atDot, State.reset, Ppu.initial, OnRenderingLine, OnFetchDot]

theorem witness_ScrollCopies :
    (∀ l ∈ [(-1 : Int), 239], OnRenderingLine (atDot l 257 0 true).ppu ∧ (atDot l 257 0 true).ppu.dot = 257)
      ∧ (∀ d ∈ [280, 304], (atDot (-1) d 0 true).ppu.scanline = -1 ∧ 280 ≤ (atDot (-1) d 0 true).ppu.dot
        ∧ (atDot (-1) d 0 true).ppu.dot ≤ 304)
      ∧ (∀ l ∈ [(-1 : Int), 239], ∀ d ∈ [1, 3, 5, 7, 256, 321, 336],
        OnRenderingLine (atDot l d 0 true).ppu ∧ OnFetchDot (atDot l d 0 true).ppu)
      ∧ (∀ d ∈ [0, 257, 320, 337], ¬ OnFetchDot (atDot 0 d 0 true).ppu) ∧ ¬ OnRenderingLine (atDot 240 1 0 true).ppu := by
  decide

/-- One dot of the background pipeline: on the first of eight the reload and the tile number, on the fifth the low plane. -/
theorem test_background_dot :
    let s := atDot 0 9 0x1042 true
    let t : State := { s with ppu := { s.ppu with bgPatLo := 0x8181, latPatLo := 0x5A, latAttr := 2, nt := [(0x042, 0x33)] } }
    let u := { t with ppu := { t.ppu with dot := 13, latTile := 0x33 }, cart := { t.cart with chr := [(0x331, 0x77)] } }
    ((ppuTick t).ppu.bgPatLo, (ppuTick t).ppu.bgAttrHi, (ppuTick t).ppu.latTile) = (0x035A, 0x00FF, 0x33)
      ∧ ((ppuTick u).ppu.bgPatLo, (ppuTick u).ppu.latPatLo) = (0x0302, 0x77) := by decide

theorem witness_RenderingOffFreezesTheScroll :
    State.reset.ppu.mask.showBg = false ∧ State.reset.ppu.mask.showSpr = false := by decide

theorem witness_SpriteEvaluation :
    (∀ l ∈ [(0 : Int), 239], ∀ d ∈ [1, 65, 256], 0 ≤ (atDot l d 0 true).ppu.scanline
        ∧ (atDot l d 0 true).ppu.scanline ≤ 239 ∧ (atDot l d 0 true).ppu.dot = d ∧ 1 ≤ d ∧ d ≤ 256)
      ∧ (∀ l ∈ [(-1 : Int), 0, 239], OnRenderingLine (atDot l 257 0 true).ppu ∧ (atDot l 257 0 true).ppu.dot = 257)
      ∧ (∀ d ∈ [257, 320], OnRenderingLine (atDot (-1) d 0 true).ppu ∧ 257 ≤ d ∧ d ≤ 320
        ∧ ((atDot (-1) d 0 true).ppu.mask.showBg || (atDot (-1) d 0 true).ppu.mask.showSpr) = true)
      ∧ ¬ (0 ≤ (atDot (-1) 256 0 true).ppu.scanline) ∧ (atDot 239 256 0 true).ppu.dot ≠ 257 := by decide

/-- Sprite 0 opaque over an opaque background at column `d - 1` of line `l` (S9 to S11). -/
def overlap (l : Int) (d : Nat) : State :=
  { State.reset with
    ppu :=
      { Ppu.initial with
        scanline := l, dot := d, mask := ⟨false, true, true, true, true, 0⟩, bgPatLo := 0xFFFF
        slots := #v[⟨0x80, 0, 0, 0⟩, .transparent, .transparent, .transparent, .transparent, .transparent, .transparent,
          .transparent]
        sprite0InScanline := true } }

/-- S9, S10 and S11 too: a hit at column 100 of line 100 and at columns 0 and 254, none at column 255 or on line 0. -/
theorem witness_SpriteZeroHitExclusions :
    (overlap 100 101).ppu.status.spr0Hit = false ∧ (ppuTick (overlap 100 101)).ppu.status.spr0Hit = true
      ∧ (ppuTick (overlap 239 255)).ppu.status.spr0Hit = true ∧ (ppuTick (overlap 1 1)).ppu.status.spr0Hit = true
      ∧ (ppuTick (overlap 100 256)).ppu.status.spr0Hit = false ∧ (ppuTick (overlap 0 101)).ppu.status.spr0Hit = false := by
  refine ⟨rfl, rfl, rfl, rfl, rfl, rfl⟩

theorem witness_OnePixelForEachVisibleDot :
    (∀ l ∈ [(0 : Int), 239], ∀ d ∈ [1, 256], 0 ≤ (atDot l d 0 true).ppu.scanline
        ∧ (atDot l d 0 true).ppu.scanline ≤ 239 ∧ 1 ≤ (atDot l d 0 true).ppu.dot ∧ (atDot l d 0 true).ppu.dot ≤ 256)
      ∧ ¬ 0 ≤ (atDot (-1) 1 0 true).ppu.scanline ∧ ¬ (atDot 0 257 0 true).ppu.dot ≤ 256 := by decide

theorem witness_VblankAndNmiLine :
    ((atDot 241 1 0 true).ppu.scanline = 241 ∧ (atDot 241 1 0 true).ppu.dot = 1)
      ∧ ((atDot (-1) 1 0 true).ppu.scanline = -1 ∧ (atDot (-1) 1 0 true).ppu.dot = 1)
      ∧ ¬ ((atDot 241 2 0 true).ppu.scanline = 241 ∧ (atDot 241 2 0 true).ppu.dot = 1)
      ∧ (∀ d ∈ [0, 64, 66, 257, 340], (atDot 0 d 0 true).ppu.dot ≠ 65) ∧ ¬ 0 ≤ (atDot (-1) 65 0 true).ppu.scanline
      ∧ ¬ (atDot 240 65 0 true).ppu.scanline ≤ 239 ∧ ¬ (atDot 0 257 0 true).ppu.dot ≤ 256
      ∧ (let s := atDot 0 64 0 true
         let raised : State := { s with ppu := { s.ppu with status := ⟨true, true, false⟩ } }
         (ppuTick raised).ppu.status.sprOverflow = true)
      ∧ (let s := atDot 0 257 0 true
         let raised : State := { s with ppu := { s.ppu with status := ⟨true, true, false⟩ } }
         (ppuTick raised).ppu.status.spr0Hit = true) := by
  refine ⟨?_, ?_, ?_, ?_, ?_, ?_, ?_, ?_, ?_⟩ <;> decide

/-- The last dots of a line, of line -1 of an odd and of an even frame, and of the frame (E2 and 51 R336). -/
theorem witness_advance :
    (ppuTick (atDot 10 339 0 true)).ppu.dot = 340 ∧ (ppuTick (atDot 10 340 0 true)).ppu.scanline = 11
      ∧ (ppuTick (atDot (-1) 339 0 true)).ppu.dot = 340
      ∧ (let s := atDot (-1) 339 0 true
         (ppuTick { s with ppu := { s.ppu with frame := 1 } }).ppu.scanline = 0)
      ∧ (ppuTick (atDot 260 340 0 true)).ppu.frame = 1 := by
  refine ⟨?_, ?_, ?_, ?_, ?_⟩ <;> decide

theorem witness_FrameLength :
    (State.reset.ppu.scanline = -1 ∧ State.reset.ppu.dot = 0)
      ∧ (let s := atDot (-1) 0 0 true
         let odd : State := { s with ppu := { s.ppu with frame := 1 } }
         odd.ppu.scanline = -1 ∧ odd.ppu.dot = 0 ∧ odd.ppu.frame % 2 = 1 ∧ odd.ppu.mask.showBg = true) := by decide

theorem witness_Mmc1Writes :
    (marked .mmc1 8).cart.mapper = .mmc1 ∧ (marked .mmc1 8).cart.mmc1.shift = 0x10 ∧ (0x80#8).getLsbD 7 = true
      ∧ (∀ a ∈ [0x8000#16, 0x9FFF, 0xA000, 0xC000, 0xFFFF], 0x8000 ≤ a.toNat)
      ∧ ∀ v ∈ [0x00#8, 0x01, 0x7F, 0x7E, 0x40], v.getLsbD 7 = false := by
  refine ⟨rfl, rfl, rfl, by simp, by simp⟩

theorem witness_UxromAndCnromBanks :
    (∀ m ∈ [Mapper.nrom, .mmc1, .uxrom, .cnrom], (marked m 8).cart.mapper = m)
      ∧ (∀ a ∈ [0x8000#16, 0xBFFF, 0xC000, 0xFFFF], 0x8000 ≤ a.toNat) ∧ (0xBFFF#16).toNat < 0xC000
      ∧ (∀ a ∈ [0x0000#16, 0x0FFF, 0x1000, 0x1FFF], a.toNat < 0x2000)
      ∧ (∀ a ∈ [0x6000#16, 0x7FFF], 0x6000 ≤ a.toNat ∧ a.toNat < 0x8000)
      ∧ (∀ a ∈ [0x4020#16, 0x5FFF], 0x4020 ≤ a.toNat ∧ a.toNat < 0x6000)
      ∧ ({ Cart.blank with prgRamPresent := true } : Cart).prgRamPresent = true ∧ Cart.blank.prgRamPresent = false := by
  refine ⟨by decide, by simp, by simp, by simp, by simp, by simp, rfl, rfl⟩

theorem witness_MappedOffsetsStayInside :
    1 ≤ Cart.blank.prgBanks16 ∧ 1 ≤ Cart.blank.chrBanks8 ∧ 0x8000 ≤ (0xFFFF#16).toNat ∧ (0x1FFF#16).toNat < 0x2000 := by
  decide

/-- A poll with a reset and buttons, one with no buttons, no poll, and images of each kind: none, of 15 bytes, with a wrong magic
number, with a trainer, mapper 4, short, and good. -/
theorem witness_HostActsBetweenFrames :
    (let s : State := { State.reset with port := { Port.initial with betweenFrames := false } }
     s.port.betweenFrames = false ∧ ∃ t, step s = .next t)
      ∧ (let q : HostPoll := { requests := [.reset], localButtons := none, buttons := some (0x09, 0x80) }
         let s : State := { State.reset with port := { Port.initial with polls := [q] } }
         s.port.betweenFrames = true ∧ s.port.polls = q :: [] ∧ q.buttons = some (0x09, 0x80)
           ∧ ({ q with buttons := none } : HostPoll).buttons = none)
      ∧ State.reset.port.betweenFrames = true ∧ State.reset.port.polls = [] ∧ State.reset.ppu.frameReady = false
      ∧ (atDot 260 340 0 true).ppu.advance.frameReady = true
      ∧ (List.replicate 15 (0 : Byte)).length < 16 ∧ 16 ≤ (List.replicate 16 (0 : Byte)).length
      ∧ (List.replicate 16 (0 : Byte)).take 4 ≠ [0x4E, 0x45, 0x53, 0x1A]
      ∧ (List.replicate 8 (0 : Byte)).length = 8 ∧ (0x04#8).getLsbD 2 = true
      ∧ 4 ≤ (0x40#8).toNat / 16 + 16 * ((0x00#8).toNat / 16)
      ∧ ([] : List Byte).length < 0x4000 * (1#8).toNat + 0x2000 * (0#8).toNat
      ∧ ¬ (List.replicate 0x4000 (0 : Byte)).length < 0x4000 * (1#8).toNat + 0x2000 * (0#8).toNat
      ∧ (match Cart.ofINes [] with | .error e => some e | .ok _ => none) = some .io := by
  refine ⟨⟨rfl, _, rfl⟩, ⟨rfl, rfl, rfl, rfl⟩, rfl, rfl, rfl, by decide, by decide, by decide, by decide, by simp, by decide, by decide,
    by decide, ?_, rfl⟩
  rw [List.length_replicate]; decide

end Sys2Proof.Tests
end

section
/-! SUPPORT. The state an instruction ends in, as an equation for each of the two shapes of exec. -/

namespace Sys2Proof.Machine

/-- The state a branch ends in (44 R231). -/
theorem execNext_branch {i : Instr} (s : State) (h : i.info.penalty = .branch) :
    execNext i s =
      if takenOf i.mnemonic (resolve i.operand s) then
        charge 2 .branch (1 + (if (resolve i.operand s).cpu.pageCrossed then 1 else 0))
          ((resolve i.operand s).setPc (resolve i.operand s).cpu.operandAddr)
      else charge 2 .branch 0 (resolve i.operand s) := by
  obtain ⟨o, ho, e⟩ := exec_branch i s h
  rw [ho]
  exact Host.Outcome.next.inj ((exec_next i s).symm.trans (e.trans (runBranch_eq _ _ _)))

/-- The state that any other instruction ends in (40 R161). -/
theorem execNext_run {i : Instr} (s : State) (h : i.info.penalty ≠ .branch) :
    execNext i s = charge i.info.base i.info.penalty 0 (performOf i.mnemonic i.operand (resolve i.operand s)) :=
  Host.Outcome.next.inj ((exec_next i s).symm.trans (exec_run i s h))

/-- What `exec` answers is `execNext`. -/
theorem execNext_of_exec {i : Instr} {s t : State} (h : exec i s = .next t) : execNext i s = t :=
  Host.Outcome.next.inj ((exec_next i s).symm.trans h)

end Sys2Proof.Machine
end

section
/-! SUPPORT. The register frame: the parts of the CPU that an operation can write, one rule for each shared operation, and
from these rules what each mnemonic and each instruction can write (10 R20 to R31). -/

namespace Sys2Proof.Machine

open Sys2Proof.Claims

/-- The parts of a state that the register frame speaks of. `dma` is the pair of latches that a store to $4014 sets;
`rest` is what no instruction writes: the tick count, the interrupt latches, the DMA buffer and the host's side. -/
inductive Part where
  | a | x | y | s | pc | flag (f : Flag) | dma | rest

/-- A part has the same value in two states. -/
def Part.Same (s t : State) : Part → Prop
  | .a => t.cpu.a = s.cpu.a
  | .x => t.cpu.x = s.cpu.x
  | .y => t.cpu.y = s.cpu.y
  | .s => t.cpu.s = s.cpu.s
  | .pc => t.cpu.pc = s.cpu.pc
  | .flag f => flagOf t.cpu.p f = flagOf s.cpu.p f
  | .dma => t.cpu.dmaPage = s.cpu.dmaPage ∧ t.cpu.dmaRemaining = s.cpu.dmaRemaining
  | .rest => t.cpu.cycleCount = s.cpu.cycleCount ∧ t.cpu.nmiPending = s.cpu.nmiPending
      ∧ t.cpu.irqPending = s.cpu.irqPending ∧ t.cpu.dmaBuffer = s.cpu.dmaBuffer ∧ t.port = s.port

theorem Part.Same.refl (s : State) (q : Part) : q.Same s s := by
  cases q <;> simp [Part.Same]

theorem Part.Same.trans {s t u : State} {q : Part} (h : q.Same s t) (g : q.Same t u) : q.Same s u := by
  cases q <;> simp_all [Part.Same]

/-- `t` differs from `s` in parts of `W` only, of those that `Part` names. -/
def Keeps (W : Part → Prop) (s t : State) : Prop := ∀ q, ¬ W q → q.Same s t

variable {W : Part → Prop}

theorem Keeps.refl (s : State) : Keeps W s s := fun q _ => .refl s q

theorem Keeps.trans {s t u : State} (h : Keeps W s t) (g : Keeps W t u) : Keeps W s u :=
  fun q hq => (h q hq).trans (g q hq)

theorem Keeps.mono {V : Part → Prop} {s t : State} (h : Keeps V s t) (hVW : ∀ q, V q → W q) : Keeps W s t :=
  fun q hq => h q fun hv => hq (hVW q hv)

/-- An operation that leaves the CPU's parts and the host's side as they are. -/
theorem Keeps.ofCpu {s t : State} (hc : t.cpu = s.cpu) (hp : t.port = s.port) : Keeps W s t := by
  intro q _
  cases q <;> simp [Part.Same, hc, hp]

-- One rule for each shared operation.

theorem keeps_setA (s : State) (v : Byte) (h : W .a) : Keeps W s (s.setA v) := by
  intro q hq
  cases q with
  | a => exact absurd h hq
  | _ => simp [Part.Same]

theorem keeps_setX (s : State) (v : Byte) (h : W .x) : Keeps W s (s.setX v) := by
  intro q hq
  cases q with
  | x => exact absurd h hq
  | _ => simp [Part.Same]

theorem keeps_setY (s : State) (v : Byte) (h : W .y) : Keeps W s (s.setY v) := by
  intro q hq
  cases q with
  | y => exact absurd h hq
  | _ => simp [Part.Same]

theorem keeps_setS (s : State) (v : Byte) (h : W .s) : Keeps W s (s.setS v) := by
  intro q hq
  cases q with
  | s => exact absurd h hq
  | _ => simp [Part.Same]

theorem keeps_setPc (s : State) (w : Addr) (h : W .pc) : Keeps W s (s.setPc w) := by
  intro q hq
  cases q with
  | pc => exact absurd h hq
  | _ => simp [Part.Same]

theorem keeps_setLatent (s : State) (w : Addr) (m c : Bool) : Keeps W s (s.setLatent w m c) := by
  intro q _
  cases q <;> simp [Part.Same]

theorem keeps_charge (b : Nat) (c : Penalty) (e : Nat) (s : State) : Keeps W s (charge b c e s) := by
  intro q _
  cases q <;> simp [Part.Same, charge]

/-- P rewritten, every flag that is not among the written ones as before. -/
theorem keeps_setP (s : State) (p : Byte) (h : ∀ f, ¬ W (.flag f) → flagOf p f = flagOf s.cpu.p f) :
    Keeps W s (s.setP p) := by
  intro q hq
  cases q with
  | flag f => exact h f hq
  | _ => simp [Part.Same]

theorem keeps_setFlag (s : State) (f : Flag) (b : Bool) (h : W (.flag f)) : Keeps W s (s.setFlag f b) := by
  refine keeps_setP s _ fun g hg => ?_
  rw [flagOf_withFlag, if_neg]
  rintro rfl
  exact hg h

theorem keeps_setZN (s : State) (v : Byte) (hz : W (.flag .z)) (hn : W (.flag .n)) : Keeps W s (s.setZN v) :=
  (keeps_setFlag s .z (v == 0) hz).trans (keeps_setFlag _ .n (bit7 v) hn)

theorem keeps_memRead (s : State) (a : Addr) : Keeps W s (memRead s a).2 := .ofCpu (by simp) (by simp)

/-- A bus write reaches the CPU at the DMA port only (20 R83). -/
theorem keeps_memWrite (s : State) (a : Addr) (v : Byte) (h : a.toNat = 0x4014 → W .dma) :
    Keeps W s (memWrite s a v) := by
  by_cases ha : a.toNat = 0x4014
  · rw [memWrite_dma s v ha]
    intro q hq
    cases q with
    | dma => exact absurd (h ha) hq
    | _ => simp [Part.Same, Cpu.startDma]
  · exact .ofCpu (by rw [memWrite_cpu, if_neg ha]) (memWrite_port s a v)

theorem keeps_push (s : State) (v : Byte) (h : W .s) : Keeps W s (push s v) :=
  (keeps_memWrite s _ v fun e => by have := stackAddr_lt s.cpu.s; omega).trans (keeps_setS _ _ h)

theorem keeps_pull (s : State) (h : W .s) : Keeps W s (pull s).2 := (keeps_setS s _ h).trans (keeps_memRead _ _)

theorem keeps_push16 (s : State) (w : Addr) (h : W .s) : Keeps W s (push16 s w) :=
  (keeps_push s _ h).trans (keeps_push _ _ h)

theorem keeps_pull16 (s : State) (h : W .s) : Keeps W s (pull16 s).2 := (keeps_pull s h).trans (keeps_pull _ h)

theorem keeps_enterInterrupt (s : State) (r : Addr) (p : Byte) (v : Addr) (hs : W .s) (hi : W (.flag .i))
    (hpc : W .pc) : Keeps W s (enterInterrupt s r p v) :=
  ((((keeps_push16 s r hs).trans (keeps_push _ p hs)).trans (keeps_setFlag _ .i true hi)).trans
    ((keeps_memRead _ _).trans (keeps_memRead _ _))).trans (keeps_setPc _ _ hpc)

/-- A pulled P replaces every flag but B and bit 5 (45 R243). -/
theorem keeps_setPulledP (s : State) (v : Byte) (h : ∀ f, f ≠ .b → f ≠ .u → W (.flag f)) :
    Keeps W s (s.setP (pulledP s.cpu.p v)) := by
  refine keeps_setP s _ fun f hf => ?_
  have hbu : f = .b ∨ f = .u := by by_contra hne; exact hf (h f (by tauto) (by tauto))
  rw [flagOf_pulledP, if_pos hbu]

theorem keeps_returnFromInterrupt (s : State) (hs : W .s) (hp : ∀ f, f ≠ .b → f ≠ .u → W (.flag f)) (hpc : W .pc) :
    Keeps W s (returnFromInterrupt s) :=
  (((keeps_pull s hs).trans (keeps_setPulledP _ _ hp)).trans (keeps_pull16 _ hs)).trans (keeps_setPc _ _ hpc)

theorem keeps_resolve (o : Operand) (s : State) : Keeps W s (resolve o s) := by
  rw [resolve_state]
  intro q _
  cases q <;> simp [Part.Same]

theorem keeps_load (o : Operand) (s : State) : Keeps W s (load o s).2 := .ofCpu (by simp) (by simp)

theorem keeps_store (o : Operand) (v : Byte) (s : State) (ha : o = .acc → W .a)
    (hd : o ≠ .acc → s.cpu.operandAddr = 0x4014 → W .dma) : Keeps W s (store o v s) := by
  by_cases ho : o = .acc
  · subst ho
    exact keeps_setA s v (ha rfl)
  · rw [store_memory ho]
    exact keeps_memWrite s _ v fun e => hd ho (BitVec.eq_of_toNat_eq e)

/-- A load and then a store: the read-modify-write of 40 R183. -/
theorem keeps_load_store (o : Operand) (v : Byte) (s : State) (ha : o = .acc → W .a)
    (hd : o ≠ .acc → s.cpu.operandAddr = 0x4014 → W .dma) : Keeps W s (store o v (load o s).2) :=
  (keeps_load o s).trans (keeps_store o v _ ha (by rwa [load_cpu]))

theorem keeps_intoA (v : Byte) (s : State) (ha : W .a) (hz : W (.flag .z)) (hn : W (.flag .n)) :
    Keeps W s (intoA v s) := (keeps_setA s v ha).trans (keeps_setZN _ v hz hn)

/-- Flags C, V, Z and N, which an addition and a subtraction write (42 R201, R202). -/
def sumFlags : List Flag := [.c, .v, .z, .n]

theorem keeps_setSum (s : State) (v c : Bool) (r : Byte) (h : ∀ f ∈ sumFlags, W (.flag f)) :
    Keeps W s (s.setP (withZN (withFlag (withFlag s.cpu.p .v v) .c c) r)) :=
  ((keeps_setFlag s .v v (h .v (by decide))).trans (keeps_setFlag _ .c c (h .c (by decide)))).trans
    (keeps_setZN _ r (h .z (by decide)) (h .n (by decide)))

theorem keeps_adcByte (m : Byte) (s : State) (ha : W .a) (h : ∀ f ∈ sumFlags, W (.flag f)) :
    Keeps W s (adcByte m s) := (keeps_setA s _ ha).trans (keeps_setSum _ _ _ _ h)

theorem keeps_sbcByte (m : Byte) (s : State) (ha : W .a) (h : ∀ f ∈ sumFlags, W (.flag f)) :
    Keeps W s (sbcByte m s) := (keeps_setA s _ ha).trans (keeps_setSum _ _ _ _ h)

theorem keeps_setCmp (s : State) (r m : Byte) (hc : W (.flag .c)) (hz : W (.flag .z)) (hn : W (.flag .n)) :
    Keeps W s (s.setP (cmpP s.cpu.p r m)) :=
  ((keeps_setFlag s .c _ hc).trans (keeps_setFlag _ .z _ hz)).trans (keeps_setFlag _ .n _ hn)

theorem keeps_setBit (s : State) (a m : Byte) (hz : W (.flag .z)) (hv : W (.flag .v)) (hn : W (.flag .n)) :
    Keeps W s (s.setP (bitP s.cpu.p a m)) :=
  ((keeps_setFlag s .z _ hz).trans (keeps_setFlag _ .v _ hv)).trans (keeps_setFlag _ .n _ hn)

theorem keeps_setShift (s : State) (c : Bool) (r : Byte) (hc : W (.flag .c)) (hz : W (.flag .z)) (hn : W (.flag .n)) :
    Keeps W s (s.setP (shiftP s.cpu.p c r)) := (keeps_setFlag s .c c hc).trans (keeps_setZN _ r hz hn)

end Sys2Proof.Machine
end

section
/-! SUPPORT. What each mnemonic and each instruction can write, by the lists of the statements. -/

namespace Sys2Proof.Machine

open Sys2Proof.Claims

/-- The mnemonics that write A in every mode (10 R20). -/
def aWriters : List Mnemonic :=
  [.lda, .adc, .sbc, .and, .eor, .ora, .pla, .txa, .tya, .slo, .rla, .sre, .rra, .isc, .lax, .anc, .alr, .sbcU]

/-- The mnemonics with an accumulator mode (30 R143). -/
def accumulatorModes : List Mnemonic := [.asl, .lsr, .rol, .ror]

/-- The mnemonics that write X (10 R21). -/
def xWriters : List Mnemonic := [.ldx, .inx, .dex, .tax, .tsx, .lax]

/-- The mnemonics that write Y (10 R22). -/
def yWriters : List Mnemonic := [.ldy, .iny, .dey, .tay]

/-- The mnemonics that write S (10 R23). -/
def sWriters : List Mnemonic := [.txs, .php, .pha, .plp, .pla, .jsr, .rts, .brk, .rti]

/-- The mnemonics that set PC whatever the flags are (44 R226 to R230). -/
def pcWriters : List Mnemonic := [.jmp, .jsr, .rts, .brk, .rti]

/-- The parts that a mnemonic writes with an operand whose effective address is `ea` (10 R20 to R24, 20 R83). -/
def Named (m : Mnemonic) (o : Operand) (ea : Addr) : Part → Prop
  | .a => m ∈ aWriters ∨ (m ∈ accumulatorModes ∧ o = .acc)
  | .x => m ∈ xWriters
  | .y => m ∈ yWriters
  | .s => m ∈ sWriters
  | .pc => m ∈ pcWriters
  | .flag f => m ∈ flagWriters f
  | .dma => (m ∈ storing ∧ o ≠ .acc) ∧ ea = 0x4014
  | .rest => False

section
variable {m : Mnemonic} {o : Operand} {ea : Addr}

theorem Named.a (h : m ∈ aWriters) : Named m o ea .a := .inl h
theorem Named.x (h : m ∈ xWriters) : Named m o ea .x := h
theorem Named.y (h : m ∈ yWriters) : Named m o ea .y := h
theorem Named.s (h : m ∈ sWriters) : Named m o ea .s := h
theorem Named.pc (h : m ∈ pcWriters) : Named m o ea .pc := h
theorem Named.flag {f : Flag} (h : m ∈ flagWriters f) : Named m o ea (.flag f) := h

theorem keepsNamed_setZN (s : State) (v : Byte) (h : m ∈ zWriters) : Keeps (Named m o ea) s (s.setZN v) :=
  keeps_setZN s v h h

theorem keepsNamed_setC (s : State) (b : Bool) (h : m ∈ flagWriters .c) : Keeps (Named m o ea) s (s.setFlag .c b) :=
  keeps_setFlag s .c b h

theorem keepsNamed_intoA (v : Byte) (s : State) (h : m ∈ aWriters ∧ m ∈ zWriters) :
    Keeps (Named m o ea) s (intoA v s) :=
  keeps_intoA v s (.inl h.1) h.2 h.2

theorem keepsNamed_setCmp (s : State) (r v : Byte) (h : m ∈ flagWriters .c ∧ m ∈ zWriters) :
    Keeps (Named m o ea) s (s.setP (cmpP s.cpu.p r v)) := keeps_setCmp s r v h.1 h.2 h.2

theorem keepsNamed_setShift (s : State) (c : Bool) (r : Byte) (h : m ∈ flagWriters .c ∧ m ∈ zWriters) :
    Keeps (Named m o ea) s (s.setP (shiftP s.cpu.p c r)) := keeps_setShift s c r h.1 h.2 h.2

theorem keepsNamed_adcByte (v : Byte) (s : State) (h : m ∈ aWriters ∧ ∀ f ∈ sumFlags, m ∈ flagWriters f) :
    Keeps (Named m o ea) s (adcByte v s) := keeps_adcByte v s (.inl h.1) h.2

theorem keepsNamed_sbcByte (v : Byte) (s : State) (h : m ∈ aWriters ∧ ∀ f ∈ sumFlags, m ∈ flagWriters f) :
    Keeps (Named m o ea) s (sbcByte v s) := keeps_sbcByte v s (.inl h.1) h.2

/-- A store writes A in accumulator mode, else at $4014 the DMA latches. -/
theorem keepsNamed_store (v : Byte) (s : State) (hacc : o = .acc → m ∈ accumulatorModes) (h : m ∈ storing) :
    Keeps (Named m o s.cpu.operandAddr) s (store o v s) :=
  keeps_store o v s (fun ho => .inr ⟨hacc ho, ho⟩) fun ho he => ⟨⟨h, ho⟩, he⟩

theorem keepsNamed_load_store (v : Byte) (s : State) (hacc : o = .acc → m ∈ accumulatorModes) (h : m ∈ storing) :
    Keeps (Named m o s.cpu.operandAddr) s (store o v (load o s).2) :=
  keeps_load_store o v s (fun ho => .inr ⟨hacc ho, ho⟩) fun ho he => ⟨⟨h, ho⟩, he⟩

/-- PLP and RTI write every flag but B and bit 5 (45 R243, 44 R229). -/
theorem named_pulledFlags (h : m = .plp ∨ m = .rti) (f : Flag) (hb : f ≠ .b) (hu : f ≠ .u) : m ∈ flagWriters f := by
  rcases h with rfl | rfl <;> cases f <;> simp_all [flagWriters, zWriters]

end

/-- Performing a mnemonic writes only what the mnemonic is named for; the accumulator mode is the shifts' alone. -/
theorem keeps_performOf (m : Mnemonic) (o : Operand) (s : State) (hacc : o = .acc → m ∈ accumulatorModes) :
    Keeps (Named m o s.cpu.operandAddr) s (performOf m o s) := by
  have ld {W : Part → Prop} : Keeps W s (load o s).2 := keeps_load o s
  have rmw (h : m ∈ storing) (v : Byte) : Keeps (Named m o s.cpu.operandAddr) s (store o v (load o s).2) :=
    keepsNamed_load_store v s hacc h
  cases m <;> simp only [performOf]
  case undef | nopU | nop | bpl | bmi | bvc | bvs | bcc | bcs | bne | beq => exact .refl s
  case lda => exact (ld.trans (keeps_setA _ _ (.a (by decide)))).trans (keepsNamed_setZN _ _ (by decide))
  case ldx => exact (ld.trans (keeps_setX _ _ (.x (by decide)))).trans (keepsNamed_setZN _ _ (by decide))
  case ldy => exact (ld.trans (keeps_setY _ _ (.y (by decide)))).trans (keepsNamed_setZN _ _ (by decide))
  case sta | stx | sty | sax => exact keepsNamed_store _ s hacc (by decide)
  case adc => exact ld.trans (keepsNamed_adcByte _ _ (by decide))
  case sbc | sbcU => exact ld.trans (keepsNamed_sbcByte _ _ (by decide))
  case cmp | cpx | cpy => exact ld.trans (keepsNamed_setCmp _ _ _ (by decide))
  case inc | dec => exact (rmw (by decide) _).trans (keepsNamed_setZN _ _ (by decide))
  case inx | dex => exact (keeps_setX s _ (.x (by decide))).trans (keepsNamed_setZN _ _ (by decide))
  case iny | dey => exact (keeps_setY s _ (.y (by decide))).trans (keepsNamed_setZN _ _ (by decide))
  case and | eor | ora => exact ld.trans (keepsNamed_intoA _ _ (by decide))
  case asl | lsr | rol | ror => exact (rmw (by decide) _).trans (keepsNamed_setShift _ _ _ (by decide))
  case bit => exact ld.trans (keeps_setBit _ _ _ (.flag (by decide)) (.flag (by decide)) (.flag (by decide)))
  case jmp => exact keeps_setPc s _ (.pc (by decide))
  case jsr => exact (keeps_push16 s _ (.s (by decide))).trans (keeps_setPc _ _ (.pc (by decide)))
  case brk => exact keeps_enterInterrupt s _ _ _ (.s (by decide)) (.flag (by decide)) (.pc (by decide))
  case rti => exact keeps_returnFromInterrupt s (.s (by decide)) (named_pulledFlags (.inr rfl)) (.pc (by decide))
  case rts => exact (keeps_pull16 s (.s (by decide))).trans (keeps_setPc _ _ (.pc (by decide)))
  case php | pha => exact keeps_push s _ (.s (by decide))
  case plp => exact (keeps_pull s (.s (by decide))).trans (keeps_setPulledP _ _ (named_pulledFlags (.inl rfl)))
  case pla =>
    exact ((keeps_pull s (.s (by decide))).trans (keeps_setA _ _ (.a (by decide)))).trans (keepsNamed_setZN _ _ (by decide))
  case clc | sec => exact keepsNamed_setC s _ (by decide)
  case cli | sei => exact keeps_setFlag s .i _ (.flag (by decide))
  case cld | sed => exact keeps_setFlag s .d _ (.flag (by decide))
  case clv => exact keeps_setFlag s .v _ (.flag (by decide))
  case tax | tsx => exact (keeps_setX s _ (.x (by decide))).trans (keepsNamed_setZN _ _ (by decide))
  case tay => exact (keeps_setY s _ (.y (by decide))).trans (keepsNamed_setZN _ _ (by decide))
  case txa | tya => exact (keeps_setA s _ (.a (by decide))).trans (keepsNamed_setZN _ _ (by decide))
  case txs => exact keeps_setS s _ (.s (by decide))
  case slo | rla | sre =>
    exact ((rmw (by decide) _).trans (keepsNamed_setC _ _ (by decide))).trans (keepsNamed_intoA _ _ (by decide))
  case rra => exact ((rmw (by decide) _).trans (keepsNamed_setC _ _ (by decide))).trans (keepsNamed_adcByte _ _ (by decide))
  case dcp => exact (rmw (by decide) _).trans (keepsNamed_setCmp _ _ _ (by decide))
  case isc => exact (rmw (by decide) _).trans (keepsNamed_sbcByte _ _ (by decide))
  case lax => exact (ld.trans (keepsNamed_intoA _ _ (by decide))).trans (keeps_setX _ _ (.x (by decide)))
  case anc => exact (ld.trans (keepsNamed_intoA _ _ (by decide))).trans (keepsNamed_setC _ _ (by decide))
  case alr => exact (ld.trans (keepsNamed_setC _ _ (by decide))).trans (keepsNamed_intoA _ _ (by decide))

/-- The accumulator mode is the shifts' and rotates' alone. -/
theorem mnemonic_of_acc {i : Instr} (h : i.operand = .acc) : i.mnemonic ∈ accumulatorModes := by
  cases i with
  | aslAcc | lsrAcc | rolAcc | rorAcc => decide
  | _ => exact absurd h (by simp [Instr.operand])

/-- What an instruction writes: what its mnemonic is named for, and a branch PC besides. -/
def Writes (i : Instr) (s : State) (q : Part) : Prop :=
  Named i.mnemonic i.operand (eaOf i s) q ∨ (q = .pc ∧ i.info.penalty = .branch)

/-- The register frame of every instruction. -/
theorem keeps_exec (i : Instr) (s : State) : Keeps (Writes i s) s (execNext i s) := by
  by_cases h : i.info.penalty = .branch
  · rw [execNext_branch s h]
    refine (keeps_resolve i.operand s).trans ?_
    split
    · exact (keeps_setPc _ _ (.inr ⟨rfl, h⟩)).trans (keeps_charge _ _ _ _)
    · exact keeps_charge _ _ _ _
  · rw [execNext_run s h]
    have perform := keeps_performOf i.mnemonic i.operand (resolve i.operand s) mnemonic_of_acc
    exact ((keeps_resolve i.operand s).trans (perform.mono fun _ => .inl)).trans (keeps_charge _ _ _ _)

/-- A part other than PC that the mnemonic is not named for stays. -/
theorem exec_keeps_part {i : Instr} {s t : State} (h : exec i s = .next t) {q : Part} (hq : q ≠ .pc)
    (hn : ¬ Named i.mnemonic i.operand (eaOf i s) q) : q.Same s t := by
  have frame := keeps_exec i s q fun hw => hw.elim hn fun hpc => hq hpc.1
  rwa [execNext_of_exec h] at frame

end Sys2Proof.Machine
end

section
/-! SUPPORT. The decimal flag is carried along and read by nothing: every operation but those that write or push P commutes
with setting it (10 R27, 42 R200). -/

namespace Sys2Proof.Machine

/-- The state with D set. -/
def State.withD (s : State) : State := s.setFlag .d true

/-- The P byte with D set. -/
def setD (p : Byte) : Byte := withFlag p .d true

theorem State.withD_eq (s : State) : s.withD = { s with cpu := { s.cpu with p := setD s.cpu.p } } := rfl

theorem withFlag_setD {f : Flag} (h : f ≠ .d) (p : Byte) (b : Bool) : withFlag (setD p) f b = setD (withFlag p f b) :=
  p_ext fun g => by
    by_cases hg : g = .d
    · simp [setD, hg, h.symm]
    · simp [setD, hg]

/-- Setting D makes up for whatever it was. -/
theorem setD_withFlag_d (p : Byte) (b : Bool) : setD (withFlag p .d b) = setD p :=
  p_ext fun g => by by_cases hg : g = .d <;> simp [setD, hg]

theorem flagOf_setD {f : Flag} (h : f ≠ .d) (p : Byte) : flagOf (setD p) f = flagOf p f := by simp [setD, h]

theorem withZN_setD (p v : Byte) : withZN (setD p) v = setD (withZN p v) := by simp [withZN, withFlag_setD]

theorem adcP_setD (p a m : Byte) : adcP (setD p) a m = setD (adcP p a m) := by
  simp [adcP, flagOf_setD, withFlag_setD, withZN_setD]

theorem sbcP_setD (p a m : Byte) : sbcP (setD p) a m = setD (sbcP p a m) := by
  simp [sbcP, flagOf_setD, withFlag_setD, withZN_setD]

theorem cmpP_setD (p r m : Byte) : cmpP (setD p) r m = setD (cmpP p r m) := by simp [cmpP, withFlag_setD]

theorem bitP_setD (p a m : Byte) : bitP (setD p) a m = setD (bitP p a m) := by simp [bitP, withFlag_setD]

theorem shiftP_setD (p : Byte) (c : Bool) (r : Byte) : shiftP (setD p) c r = setD (shiftP p c r) := by
  simp [shiftP, withFlag_setD, withZN_setD]

-- What is read of a state with D set.

@[simp] theorem withD_a (s : State) : s.withD.cpu.a = s.cpu.a := rfl
@[simp] theorem withD_x (s : State) : s.withD.cpu.x = s.cpu.x := rfl
@[simp] theorem withD_y (s : State) : s.withD.cpu.y = s.cpu.y := rfl
@[simp] theorem withD_s (s : State) : s.withD.cpu.s = s.cpu.s := rfl
@[simp] theorem withD_pc (s : State) : s.withD.cpu.pc = s.cpu.pc := rfl
@[simp] theorem withD_operandAddr (s : State) : s.withD.cpu.operandAddr = s.cpu.operandAddr := rfl
@[simp] theorem withD_pageCrossed (s : State) : s.withD.cpu.pageCrossed = s.cpu.pageCrossed := rfl
@[simp] theorem withD_p (s : State) : s.withD.cpu.p = setD s.cpu.p := rfl
theorem withD_flag (s : State) {f : Flag} (h : f ≠ .d) : s.withD.flag f = s.flag f := flagOf_setD h _

-- Every shared operation commutes with setting D.

@[simp] theorem setA_withD (s : State) (v : Byte) : s.withD.setA v = (s.setA v).withD := rfl
@[simp] theorem setX_withD (s : State) (v : Byte) : s.withD.setX v = (s.setX v).withD := rfl
@[simp] theorem setY_withD (s : State) (v : Byte) : s.withD.setY v = (s.setY v).withD := rfl
@[simp] theorem setS_withD (s : State) (v : Byte) : s.withD.setS v = (s.setS v).withD := rfl
@[simp] theorem setPc_withD (s : State) (w : Addr) : s.withD.setPc w = (s.setPc w).withD := rfl
@[simp] theorem setLatent_withD (s : State) (w : Addr) (m c : Bool) :
    s.withD.setLatent w m c = (s.setLatent w m c).withD := rfl

/-- A new P that carries D along. -/
@[simp] theorem setP_withD (s : State) (p : Byte) : s.withD.setP (setD p) = (s.setP p).withD := rfl

@[simp] theorem setFlag_withD (s : State) (b : Bool) {f : Flag} (h : f ≠ .d) :
    s.withD.setFlag f b = (s.setFlag f b).withD := congrArg s.setP (withFlag_setD h s.cpu.p b)

@[simp] theorem setZN_withD (s : State) (v : Byte) : s.withD.setZN v = (s.setZN v).withD :=
  congrArg s.setP (withZN_setD s.cpu.p v)

@[simp] theorem charge_withD (b : Nat) (c : Penalty) (e : Nat) (s : State) :
    charge b c e s.withD = (charge b c e s).withD := by cases c <;> rfl

@[simp] theorem memRead_withD (s : State) (a : Addr) : memRead s.withD a = ((memRead s a).1, (memRead s a).2.withD) := by
  rw [State.withD_eq, memRead_withCpu, State.withD_eq, memRead_cpu]

@[simp] theorem memWrite_withD (s : State) (a : Addr) (v : Byte) : memWrite s.withD a v = (memWrite s a v).withD := by
  unfold memWrite
  split <;> rfl

@[simp] theorem readPair_withD (s : State) (l h : Addr) :
    readPair s.withD l h = ((readPair s l h).1, (readPair s l h).2.withD) := by simp [readPair]

@[simp] theorem push_withD (s : State) (v : Byte) : push s.withD v = (push s v).withD := by simp [push]

@[simp] theorem pull_withD (s : State) : pull s.withD = ((pull s).1, (pull s).2.withD) := by simp [pull]

@[simp] theorem push16_withD (s : State) (w : Addr) : push16 s.withD w = (push16 s w).withD := by simp [push16]

@[simp] theorem pull16_withD (s : State) : pull16 s.withD = ((pull16 s).1, (pull16 s).2.withD) := by simp [pull16]

@[simp] theorem resolve_withD (o : Operand) (s : State) : resolve o s.withD = (resolve o s).withD := by
  cases o <;> simp [resolve, setIndexed, readZeroPagePointer]

@[simp] theorem load_withD (o : Operand) (s : State) : load o s.withD = ((load o s).1, (load o s).2.withD) := by
  cases o <;> simp [load]

@[simp] theorem store_withD (o : Operand) (v : Byte) (s : State) : store o v s.withD = (store o v s).withD := by
  cases o <;> simp [store]

@[simp] theorem intoA_withD (v : Byte) (s : State) : intoA v s.withD = (intoA v s).withD := by simp [intoA]

@[simp] theorem adcByte_withD (m : Byte) (s : State) : adcByte m s.withD = (adcByte m s).withD := by
  simp [adcByte, withD_flag, adcP_setD]

@[simp] theorem sbcByte_withD (m : Byte) (s : State) : sbcByte m s.withD = (sbcByte m s).withD := by
  simp [sbcByte, withD_flag, sbcP_setD]

@[simp] theorem cmpByte_withD (m : Byte) (s : State) : cmpByte m s.withD = (cmpByte m s).withD := by
  simp [cmpByte, cmpP_setD]

/-- The mnemonics that write D or push P (10 R24, 45 R241, 44 R228). -/
def decimalUsers : List Mnemonic := [.cld, .sed, .plp, .rti, .php, .brk]

/-- Performing a mnemonic that neither writes D nor pushes P commutes with setting D. -/
theorem performOf_withD (m : Mnemonic) (o : Operand) (s : State) (h : m ∉ decimalUsers) :
    performOf m o s.withD = (performOf m o s).withD := by
  cases m <;> simp only [performOf]
  case cld | sed | plp | rti | php | brk => exact absurd (by decide) h
  case lda | ldx | ldy | lax => simp [lda, ldx, ldy, lax]
  case sta | stx | sty | sax => simp [sta, stx, sty, sax]
  case adc | sbc | sbcU | cmp => simp [adc, sbc, sbcU, cmp]
  case cpx | cpy => simp [cpx, cpy, cmpP_setD]
  case inc | dec | dcp | isc => simp [inc, dec, dcp, isc]
  case inx | dex | iny | dey => simp [inx, dex, iny, dey]
  case and | eor | ora => simp [andA, eor, ora]
  case asl | lsr | rol | ror => simp [asl, lsr, rol, ror, withD_flag, shiftP_setD]
  case bit => simp [bit, bitP_setD]
  case slo | rla | sre | rra => simp [slo, rla, sre, rra, withD_flag]
  case anc | alr => simp [anc, alr, withD_flag]
  case jmp | jsr | rts => simp [jmp, jsr, rts]
  case pha | pla => simp [pha, pla]
  case clc | sec | cli | sei | clv => simp [clc, sec, cli, sei, clv]
  case undef | nopU | nop => rfl
  case tax | tay | txa | tya | tsx | txs => simp [tax, tay, txa, tya, tsx, txs]

/-- No branch tests D. -/
theorem takenOf_withD (m : Mnemonic) (s : State) : takenOf m s.withD = takenOf m s := by
  cases m <;> simp [takenOf, withD_flag]

/-- An instruction that neither writes D nor pushes P commutes with setting D. -/
theorem execNext_withD (i : Instr) (s : State) (h : i.mnemonic ∉ decimalUsers) :
    execNext i s.withD = (execNext i s).withD := by
  by_cases hb : i.info.penalty = .branch
  · rw [execNext_branch _ hb, execNext_branch _ hb, resolve_withD, takenOf_withD]
    split
    · exact charge_withD _ _ _ ((resolve i.operand s).setPc (resolve i.operand s).cpu.operandAddr)
    · exact charge_withD _ _ _ _
  · rw [execNext_run _ hb, execNext_run _ hb, resolve_withD, performOf_withD _ _ _ h, charge_withD]

end Sys2Proof.Machine
end

section
/-! The family of file 10: the invariant, the constant bits of P, and what an instruction writes. -/

namespace Sys2Proof.Machine

open Sys2Proof.Claims

/-- Settles O6: opening the frame keeps the machine's part and the host's part of the invariant, the dots and the CPU tick
keep the machine's middle invariant, the tick leaves the counter in range, and closing the frame takes `frame_ready` back. -/
theorem everyStepKeepsTheInvariant : Obligations.EveryStepKeepsTheInvariant := by
  intro s t hs hstep
  obtain ⟨hsnap, hport, -⟩ := hs
  obtain rfl : stepNext s = t := Host.Outcome.next.inj ((step_eq s).symm.trans hstep)
  obtain ⟨hopen, hopenPort⟩ := openFrame_inv hsnap hport
  have work := works_cpuTick (threeDots (openFrame s))
  have hcycles := cpuTick_cycles (s := threeDots (openFrame s)) hopen.1.2
  refine closeFrame_inv (snapshot_inv (work.mid (threeDots_mid (mid_of_snapshot hopen))) hcycles) ?_
  rw [work.port, threeDots_port]
  exact hopenPort

/-- Settles O8: whatever a CPU tick does, it is work, which keeps both bits. -/
theorem breakAndUnusedBitsNeverChange : Obligations.BreakAndUnusedBitsNeverChange := by
  intro s t h
  obtain rfl : cpuTickNext s = t := Host.Outcome.next.inj ((cpuTick_eq s).symm.trans h)
  exact ⟨(works_cpuTick s).bFlag, (works_cpuTick s).uFlag⟩

/-- Settles O9: the flags of the register frame. -/
theorem onlyNamedInstructionsWriteAFlag : Obligations.OnlyNamedInstructionsWriteAFlag :=
  fun _ _ _ f h hf => exec_keeps_part h (q := .flag f) nofun hf

/-- Settles O10: the register frame, part by part; PC stays where neither the mnemonic nor a branch writes it. -/
theorem onlyNamedInstructionsWriteARegister : Obligations.OnlyNamedInstructionsWriteARegister := by
  intro i s t h
  have keeps {q : Part} := exec_keeps_part h (q := q)
  have pc (hm : i.mnemonic ∉ pcWriters) (hb : i.info.penalty ≠ .branch) : Part.pc.Same s (execNext i s) :=
    keeps_exec i s .pc fun hw => hw.elim hm fun hpc => hb hpc.2
  rw [execNext_of_exec h] at pc
  exact ⟨keeps (q := .a) nofun, keeps (q := .x) nofun, keeps (q := .y) nofun, keeps (q := .s) nofun, pc,
    keeps (q := .dma) nofun, keeps (q := .rest) nofun id⟩

/-- Settles O12: with D set an instruction ends in the state it ends in with D clear, D itself set. -/
theorem decimalFlagIsNeverRead : Obligations.DecimalFlagIsNeverRead := by
  intro i s t hm h
  have hset : s.setFlag .d true = (s.setFlag .d false).withD := by
    rw [State.withD_eq, State.setFlag_cpu, setD_withFlag_d]
    rfl
  rw [hset, exec_next, execNext_withD i _ hm, execNext_of_exec h]
  rfl

end Sys2Proof.Machine
end

section
/-! SUPPORT. What a peek sees: one lemma for each device, and which parts of the state it does not look at. -/

namespace Sys2Proof.Machine

theorem peek_wram {a : Addr} (s : State) (h : a.toNat < 0x2000) : peek s a = s.wram.read (wramIndex a) :=
  congrArg Prod.fst (memRead_wram s h)

theorem peek_ppu {a : Addr} (s : State) (h : 0x2000 ≤ a.toNat) (h' : a.toNat < 0x4000) :
    peek s a = (Ppu.readRegister s.cart s.ppu (a.toNat % 8)).1 := congrArg Prod.fst (memRead_ppu s h h')

theorem peek_cart {a : Addr} (s : State) (h : 0x4020 ≤ a.toNat) : peek s a = s.cart.cpuRead a :=
  congrArg Prod.fst (memRead_cart s h)

/-- The write-only DMA port and the addresses that no device claims read as 0 (20 R74, R82). -/
theorem peek_eq_zero {a : Addr} (s : State) (h : 0x4000 ≤ a.toNat) (h' : a.toNat < 0x4020) (h1 : a ≠ 0x4016)
    (h2 : a ≠ 0x4017) : peek s a = 0 := by
  by_cases hd : a.toNat = 0x4014
  · exact congrArg Prod.fst (memRead_dma s hd)
  · exact congrArg Prod.fst (memRead_none s h h' hd (fun e => h1 (BitVec.eq_of_toNat_eq e))
      fun e => h2 (BitVec.eq_of_toNat_eq e))

theorem claims_of_deviceAt {a : Addr} {d : Device} (h : deviceAt a = some d) : d.claims a = true := by
  have hclaims := List.find?_some h
  exact hclaims

/-- Outside $0000-$1FFF a read does not look at work RAM. -/
theorem peek_withWram {a : Addr} (s : State) (m : Memory) (h : 0x2000 ≤ a.toNat) :
    peek { s with wram := m } a = peek s a := by
  unfold peek memRead
  split
  case h_1 e =>
    have := of_decide_eq_true (claims_of_deviceAt e)
    omega
  all_goals rfl

/-- Outside $2000-$3FFF a read looks neither at the CPU nor at the PPU. -/
theorem peek_withCpuPpu {a : Addr} (s : State) (c : Cpu) (p : Ppu) (h : ¬ (0x2000 ≤ a.toNat ∧ a.toNat < 0x4000)) :
    peek { s with cpu := c, ppu := p } a = peek s a := by
  unfold peek memRead
  split
  case h_2 e => exact absurd (by simpa [Device.claims] using claims_of_deviceAt e) h
  all_goals rfl

/-- No register read looks at PRG-RAM. -/
theorem readRegister_withPrgRam (c : Cart) (m : Memory) (p : Ppu) (r : Nat) :
    Ppu.readRegister { c with prgRam := m } p r = Ppu.readRegister c p r := by
  unfold Ppu.readRegister
  split <;> rfl

/-- Below $4020 a read does not look at PRG-RAM. -/
theorem peek_withPrgRam {a : Addr} (s : State) (m : Memory) (h : a.toNat < 0x4020) :
    peek { s with cart := { s.cart with prgRam := m } } a = peek s a := by
  have hreg := congrArg Prod.fst (readRegister_withPrgRam s.cart m s.ppu (a.toNat % 8))
  unfold peek memRead
  split
  case h_2 => exact hreg
  case h_5 e =>
    have := of_decide_eq_true (claims_of_deviceAt e)
    omega
  all_goals rfl

/-- The addresses that 20 R89 names. -/
theorem readHasSideEffect_iff (a : Addr) :
    readHasSideEffect a = true ↔
      (0x2000 ≤ a.toNat ∧ a.toNat < 0x4000 ∧ (a.toNat % 8 = 2 ∨ a.toNat % 8 = 7)) ∨ a = 0x4016 ∨ a = 0x4017 := by
  simp only [readHasSideEffect, Bool.or_eq_true, Bool.and_eq_true, decide_eq_true_eq, beq_iff_eq, and_assoc, or_assoc]

/-- No register read changes a memory of the PPU. -/
theorem readRegister_memories (c : Cart) (p : Ppu) (r : Nat) :
    (Ppu.readRegister c p r).2.nt = p.nt ∧ (Ppu.readRegister c p r).2.pal = p.pal
      ∧ (Ppu.readRegister c p r).2.oam = p.oam := by
  unfold Ppu.readRegister
  split
  case h_3 =>
    simp only [Ppu.readData]
    split <;> exact ⟨rfl, rfl, rfl⟩
  all_goals exact ⟨rfl, rfl, rfl⟩

theorem memRead_ppuMemories (s : State) (a : Addr) :
    (memRead s a).2.ppu.nt = s.ppu.nt ∧ (memRead s a).2.ppu.pal = s.ppu.pal
      ∧ (memRead s a).2.ppu.oam = s.ppu.oam := by
  unfold memRead
  split
  case h_2 => exact readRegister_memories _ _ _
  all_goals exact ⟨rfl, rfl, rfl⟩

end Sys2Proof.Machine
end

section
/-! SUPPORT. The PRG-RAM: its bank, its offsets, and a read after a write. -/

namespace Sys2Proof.Machine

/-- The MMC1's PRG-RAM bank as a number (21 R126, the spec's decision D35). -/
theorem ramBank_eq (c : Cart) :
    c.ramBank = if c.mapper = .mmc1 ∧ c.chrIsRam = true then c.mmc1.chr0.toNat / 4 % 4 else 0 := by
  unfold Cart.ramBank
  cases c.mapper <;> simp [BitVec.extractLsb'_toNat, Nat.shiftRight_eq_div_pow]

theorem ramBank_lt (c : Cart) : c.ramBank < 4 := by
  rw [ramBank_eq]
  split <;> omega

/-- Within $6000-$7FFF each address has its own offset. -/
theorem ramOffset_inj {c : Cart} {a b : Addr} (ha : 0x6000 ≤ a.toNat ∧ a.toNat < 0x8000)
    (hb : 0x6000 ≤ b.toNat ∧ b.toNat < 0x8000) : c.ramOffset b = c.ramOffset a ↔ b = a := by
  unfold Cart.ramOffset
  rw [← BitVec.toNat_inj]
  omega

theorem cpuRead_low {c : Cart} {a : Addr} (h : a.toNat < 0x6000) : c.cpuRead a = 0 := if_pos h

theorem cpuRead_ram {c : Cart} {a : Addr} (h : 0x6000 ≤ a.toNat ∧ a.toNat < 0x8000) :
    c.cpuRead a = if c.prgRamPresent then c.prgRam.read (c.ramOffset a) else 0 := by
  rw [Cart.cpuRead, if_neg (by omega), if_pos h.2]

theorem cpuRead_rom {c : Cart} {a : Addr} (h : 0x8000 ≤ a.toNat) : c.cpuRead a = c.prgRom.read (c.prgOffset a) := by
  rw [Cart.cpuRead, if_neg (by omega), if_neg (by omega)]

theorem cpuWrite_low {c : Cart} {a : Addr} (v : Byte) (h : a.toNat < 0x6000) : c.cpuWrite a v = c := if_pos h

theorem cpuWrite_ram {c : Cart} {a : Addr} (v : Byte) (h : 0x6000 ≤ a.toNat ∧ a.toNat < 0x8000) :
    c.cpuWrite a v = if c.prgRamPresent then { c with prgRam := c.prgRam.write (c.ramOffset a) v } else c := by
  rw [Cart.cpuWrite, if_neg (by omega), if_pos h.2]

/-- A write of PRG-RAM that is present (21 R113). -/
theorem memWrite_prgRam {s : State} {a : Addr} (v : Byte) (h : 0x6000 ≤ a.toNat ∧ a.toNat < 0x8000)
    (hp : s.cart.prgRamPresent = true) :
    memWrite s a v = { s with cart := { s.cart with prgRam := s.cart.prgRam.write (s.cart.ramOffset a) v } } := by
  rw [memWrite_cart s v (by omega), cpuWrite_ram v h, if_pos hp]

/-- The cartridge's address space after a write of a byte of PRG-RAM that is present. -/
theorem cpuRead_writeRam {c : Cart} {a : Addr} (v : Byte) (h : 0x6000 ≤ a.toNat ∧ a.toNat < 0x8000)
    (hp : c.prgRamPresent = true) (b : Addr) :
    ({ c with prgRam := c.prgRam.write (c.ramOffset a) v } : Cart).cpuRead b = if b = a then v else c.cpuRead b := by
  by_cases hb : 0x6000 ≤ b.toNat ∧ b.toNat < 0x8000
  · rw [cpuRead_ram hb, cpuRead_ram hb, if_pos hp, if_pos hp, Memory.read_write]
    exact if_congr (ramOffset_inj h hb) rfl rfl
  · have hne : b ≠ a := fun e => hb (e ▸ h)
    rw [if_neg hne]
    by_cases hlow : b.toNat < 0x6000
    · rw [cpuRead_low hlow, cpuRead_low hlow]
    · rw [cpuRead_rom (by omega), cpuRead_rom (by omega)]
      rfl

end Sys2Proof.Machine
end

section
/-! SUPPORT. The controller ports: the shift buffers, and what a read and a write of a port do to them. -/

namespace Sys2Proof.Machine

open Sys2Proof.Claims

theorem and_one_eq_bitByte (b : Byte) : b &&& 1 = bitByte (b.getLsbD 0) := by
  rw [show (1 : Byte) = 1#8 from rfl, BitVec.and_one_eq_setWidth_ofBool_getLsbD]
  cases b.getLsbD 0 <;> rfl

/-- The byte read from a buffer, as a number (20 R80). -/
theorem padShift_value (b : Byte) : (padShift b).1 = BitVec.ofNat 8 (0x40 + b.toNat % 2) := by
  rw [padShift, and_one_eq_bitByte, BitVec.getLsbD, Nat.testBit_zero]
  obtain h | h := Nat.mod_two_eq_zero_or_one b.toNat <;> rw [h] <;> rfl

/-- The buffer after a read, as a number (20 R80). -/
theorem padShift_buffer (b : Byte) : (padShift b).2 = BitVec.ofNat 8 (128 + b.toNat / 2) := by
  have hb := b.isLt
  have hor := Nat.two_pow_add_eq_or_of_lt (i := 7) (b := b.toNat / 2) (by omega) 1
  apply BitVec.eq_of_toNat_eq
  rw [padShift, BitVec.toNat_or, BitVec.toNat_ushiftRight, Nat.shiftRight_eq_div_pow, BitVec.toNat_ofNat,
    Nat.mod_eq_of_lt (by omega)]
  exact (Nat.or_comm _ _).trans hor.symm

/-- A read moves every bit one place down and fills in a 1 from above. -/
theorem getLsbD_padShift {n : Nat} (h : n < 8) (b : Byte) :
    (padShift b).2.getLsbD n = if n + 1 < 8 then b.getLsbD (n + 1) else true := by
  have hfill : (0x80#8).getLsbD n = decide (n = 7) := by decide +revert
  rw [padShift, BitVec.getLsbD_or, BitVec.getLsbD_ushiftRight, Nat.add_comm 1 n]
  split
  next hn => simp [hfill, show n ≠ 7 by omega]
  next hn => simp [show n = 7 by omega]

/-- The shift buffer behind a port address. -/
def Pads.buffer (p : Pads) (a : Addr) : Byte := if a = 0x4016 then p.shift1 else p.shift2

theorem isPad_toNat {a : Addr} (h : a = 0x4016 ∨ a = 0x4017) : a.toNat = 0x4016 ∨ a.toNat = 0x4017 :=
  h.imp (congrArg BitVec.toNat) (congrArg BitVec.toNat)

theorem peek_pads {a : Addr} (s : State) (h : a = 0x4016 ∨ a = 0x4017) :
    peek s a = (padShift (s.pads.buffer a)).1 := by
  rw [peek, memRead_pads s (isPad_toNat h)]
  obtain rfl | rfl := h <;> rfl

theorem memRead_buffer {a : Addr} (s : State) (h : a = 0x4016 ∨ a = 0x4017) :
    (memRead s a).2.pads.buffer a = (padShift (s.pads.buffer a)).2 := by
  rw [memRead_pads s (isPad_toNat h)]
  obtain rfl | rfl := h <;> rfl

/-- After `n` reads of a port bit 0 of its buffer is bit `n` of what it was, and 1 once all eight bits are out. -/
theorem readTimes_buffer {a : Addr} (h : a = 0x4016 ∨ a = 0x4017) (n : Nat) (s : State) :
    ((readTimes a n s).pads.buffer a).getLsbD 0 = if n < 8 then (s.pads.buffer a).getLsbD n else true := by
  induction n generalizing s with
  | zero => rfl
  | succ n ih =>
    rw [readTimes, ih, memRead_buffer s h]
    by_cases hn : n < 8
    · rw [if_pos hn, getLsbD_padShift hn]
    · rw [if_neg hn, if_neg (by omega)]

/-- What the read after `n` reads of a port gives. -/
theorem peek_readTimes {a : Addr} (h : a = 0x4016 ∨ a = 0x4017) (n : Nat) (s : State) :
    peek (readTimes a n s) a = 0x40 ||| (if n < 8 then bitByte ((s.pads.buffer a).getLsbD n) else 1) := by
  rw [peek_pads _ h, padShift, and_one_eq_bitByte, readTimes_buffer h, BitVec.or_comm]
  split <;> rfl

/-- A write of $4016: the strobe, and the latch on its falling edge (20 R79). -/
theorem memWrite_strobe (s : State) (v : Byte) :
    memWrite s 0x4016 v =
      { s with pads := { s.pads with
        strobe := v.getLsbD 0
        shift1 := if s.pads.strobe = true ∧ v.getLsbD 0 = false then s.pads.committed1 else s.pads.shift1
        shift2 := if s.pads.strobe = true ∧ v.getLsbD 0 = false then s.pads.committed2 else s.pads.shift2 } } := by
  rw [memWrite_pads s v (.inl rfl)]
  simp only [Pads.write, if_true]
  split <;> rfl

/-- After the strobe went up and down, each buffer holds its player's committed buttons. -/
theorem strobe_latches (s : State) {v w : Byte} (hv : v.getLsbD 0 = true) (hw : w.getLsbD 0 = false) :
    (memWrite (memWrite s 0x4016 v) 0x4016 w).pads =
      { s.pads with strobe := false, shift1 := s.pads.committed1, shift2 := s.pads.committed2 } := by
  simp only [memWrite_strobe, hv, hw, and_self, if_true]

/-- A write of $4017 is dropped (20 R81). -/
theorem memWrite_pad2 (s : State) (v : Byte) : memWrite s 0x4017 v = s := by
  rw [memWrite_pads s v (.inr rfl)]
  rfl

end Sys2Proof.Machine
end

section
/-! SUPPORT. An OAM DMA, tick by tick: the stalls, then 256 pairs of a read and a write, and the state after each pair. -/

namespace Sys2Proof.Machine

open Sys2Proof.Claims

/-- CPU ticks never stop, so `n` of them are the tick's next state, `n` times. -/
theorem cpuTicks_eq (n : Nat) (s : State) : cpuTicks n s = .next (cpuTickNext^[n] s) := by
  induction n generalizing s with
  | zero => rfl
  | succ n ih =>
    rw [cpuTicks, cpuTick_eq]
    exact ih _

/-- A tick of a DMA's stall (20 R83). -/
theorem cpuTickNext_stall {s : State} (h : 512 < s.cpu.dmaRemaining) :
    cpuTickNext s = { s with cpu := { s.cpu with
      dmaRemaining := s.cpu.dmaRemaining - 1, cycleCount := s.cpu.cycleCount + 1 } } := by
  rw [cpuTickNext, if_pos (by omega), dmaCycle_stall h]
  rfl

/-- The tick of a DMA that reads byte `k` of a page, if the read has no side effect (20 R84). -/
theorem cpuTickNext_dmaRead {s : State} {k : Nat} (hk : k < 256) (hr : s.cpu.dmaRemaining = 512 - 2 * k)
    (hq : readHasSideEffect (w16 s.cpu.dmaPage (BitVec.ofNat 8 k)) = false) :
    cpuTickNext s = { s with cpu := { s.cpu with
      dmaBuffer := peek s (w16 s.cpu.dmaPage (BitVec.ofNat 8 k))
      dmaRemaining := 511 - 2 * k
      cycleCount := s.cpu.cycleCount + 1 } } := by
  have hj : (512 - s.cpu.dmaRemaining) / 2 = k := by omega
  have hn : s.cpu.dmaRemaining - 1 = 511 - 2 * k := by omega
  rw [cpuTickNext, if_pos (by omega), dmaCycle_read (by omega) (by omega), hj, hn, memRead_quiet hq]
  rfl

/-- The tick of a DMA that writes the byte read to OAM (20 R84, 50 R293). -/
theorem cpuTickNext_dmaWrite {s : State} {k : Nat} (hk : k < 256) (hr : s.cpu.dmaRemaining = 511 - 2 * k) :
    cpuTickNext s = { s with
      cpu := { s.cpu with dmaRemaining := 512 - 2 * (k + 1), cycleCount := s.cpu.cycleCount + 1 }
      ppu := s.ppu.writeOamData s.cpu.dmaBuffer } := by
  have hn : s.cpu.dmaRemaining - 1 = 512 - 2 * (k + 1) := by omega
  rw [cpuTickNext, if_pos (by omega), dmaCycle_write (by omega) (by omega), hn]
  rfl

/-- Byte `k` of the DMA's source page. -/
def dmaByte (s : State) (k : Nat) : Byte := peek s (w16 s.cpu.dmaPage (BitVec.ofNat 8 k))

/-- The buffer after `k` copies: the byte copied last. -/
def dmaBufferAfterCopies (s : State) : Nat → Byte
  | 0 => s.cpu.dmaBuffer
  | k + 1 => dmaByte s k

/-- OAM after `k` copies of a DMA. -/
def oamAfterCopies (s : State) : Nat → Memory
  | 0 => s.ppu.oam
  | k + 1 => (oamAfterCopies s k).write (s.ppu.oamaddr + BitVec.ofNat 8 k).toNat (dmaByte s k)

/-- The state of a machine `s` at the start of a DMA, after the stalls and `k` copies. -/
def afterCopies (s : State) (k : Nat) : State :=
  { s with
    cpu := { s.cpu with
      dmaRemaining := 512 - 2 * k
      dmaBuffer := dmaBufferAfterCopies s k
      cycleCount := s.cpu.cycleCount + (s.cpu.dmaRemaining - 512) + 2 * k }
    ppu := { s.ppu with oam := oamAfterCopies s k, oamaddr := s.ppu.oamaddr + BitVec.ofNat 8 k } }

/-- No read of the page has a side effect (20 R89). -/
def QuietPage (page : Byte) : Prop := ∀ i < 256, readHasSideEffect (w16 page (BitVec.ofNat 8 i)) = false

/-- A page of quiet reads is none of the PPU's, each of which has a mirror of $2002. -/
theorem QuietPage.not_ppu {page : Byte} (h : QuietPage page) (b : Byte) :
    ¬ (0x2000 ≤ (w16 page b).toNat ∧ (w16 page b).toNat < 0x4000) := by
  have h2 := h 2 (by decide)
  rw [← Bool.not_eq_true, readHasSideEffect_iff, not_or, toNat_w16, show (BitVec.ofNat 8 2).toNat = 2 from rfl] at h2
  have hb := b.isLt
  rw [toNat_w16]
  omega

/-- The stalls of a DMA (20 R83). -/
theorem dmaTicks_stalls {s : State} (h : s.cpu.dmaRemaining = 513 ∨ s.cpu.dmaRemaining = 514) :
    cpuTickNext^[s.cpu.dmaRemaining - 512] s = afterCopies s 0 := by
  have haddr : s.ppu.oamaddr + BitVec.ofNat 8 0 = s.ppu.oamaddr := BitVec.add_zero _
  obtain h | h := h
  · rw [h]
    show cpuTickNext s = _
    rw [cpuTickNext_stall (by omega), afterCopies, haddr, h]
    rfl
  · rw [h]
    show cpuTickNext (cpuTickNext s) = _
    rw [cpuTickNext_stall (s := s) (by omega), cpuTickNext_stall (by simp [h]), afterCopies, haddr, h]
    rfl

/-- A copy: one tick reads a byte of the page, the next writes it (20 R84). -/
theorem dmaTicks_copy {s : State} (hq : QuietPage s.cpu.dmaPage) {k : Nat} (hk : k < 256) :
    cpuTickNext (cpuTickNext (afterCopies s k)) = afterCopies s (k + 1) := by
  have hread : peek (afterCopies s k) (w16 (afterCopies s k).cpu.dmaPage (BitVec.ofNat 8 k)) = dmaByte s k :=
    peek_withCpuPpu s _ _ (hq.not_ppu _)
  have haddr : s.ppu.oamaddr + BitVec.ofNat 8 k + 1 = s.ppu.oamaddr + BitVec.ofNat 8 (k + 1) := by
    rw [BitVec.add_assoc, ← BitVec.ofNat_add_ofNat]
    rfl
  have hcount (n : Nat) : n + 2 * k + 1 + 1 = n + 2 * (k + 1) := by omega
  rw [cpuTickNext_dmaRead (s := afterCopies s k) hk rfl (hq k hk), cpuTickNext_dmaWrite hk rfl, hread]
  simp only [Ppu.writeOamData, afterCopies, oamAfterCopies, dmaBufferAfterCopies, haddr, hcount]

theorem dmaTicks_copies {s : State} (hq : QuietPage s.cpu.dmaPage) {k : Nat} (hk : k ≤ 256) :
    cpuTickNext^[2 * k] (afterCopies s 0) = afterCopies s k := by
  induction k with
  | zero => rfl
  | succ k ih =>
    rw [Nat.mul_succ, Function.iterate_succ_apply', Function.iterate_succ_apply', ih (by omega), dmaTicks_copy hq hk]

/-- What the copies put in OAM: the page from OAMADDR on, wrapping (20 R85). -/
theorem read_oamAfterCopies (s : State) {k : Nat} (hk : k ≤ 256) {i : Nat} (hi : i < k) :
    (oamAfterCopies s k).read ((s.ppu.oamaddr.toNat + i) % 256) = dmaByte s i := by
  induction k with
  | zero => omega
  | succ k ih =>
    have haddr : (s.ppu.oamaddr + BitVec.ofNat 8 k).toNat = (s.ppu.oamaddr.toNat + k) % 256 := by simp
    rw [oamAfterCopies, Memory.read_write, haddr]
    by_cases he : i = k
    · rw [he, if_pos rfl]
    · rw [if_neg (by omega), ih (by omega) (by omega)]

end Sys2Proof.Machine
end

section
/-! The family of file 20: the bus, its memories, the controllers and the OAM DMA. -/

namespace Sys2Proof.Machine

open Sys2Proof.Claims

/-- Settles O33: device by device. -/
theorem busReadValues : Obligations.BusReadValues := fun s _ =>
  ⟨peek_wram s, peek_ppu s, peek_pads s (.inl rfl), peek_pads s (.inr rfl), peek_cart s, peek_eq_zero s⟩

/-- Settles O34: a read outside 20 R89's list is quiet, and a register read keeps the PPU's memories. -/
theorem onlyNamedReadsHaveSideEffects : Obligations.OnlyNamedReadsHaveSideEffects := by
  intro s a
  obtain ⟨hnt, hpal, hoam⟩ := memRead_ppuMemories s a
  refine ⟨memRead_state s a, hnt, hpal, hoam, fun hppu h16 h17 => memRead_quiet ?_⟩
  rw [← Bool.not_eq_true, readHasSideEffect_iff]
  exact not_or.2 ⟨hppu, not_or.2 ⟨h16, h17⟩⟩

/-- Settles O35: a write changes one byte of its memory, and a read elsewhere does not see that byte. -/
theorem memoryReadsBackWhatWasWritten : Obligations.MemoryReadsBackWhatWasWritten := by
  intro s a v
  refine ⟨memWrite_wram s v, fun h h' hp => ?_, fun h b => ?_, fun h h' hp b => ?_, fun h h' hp => ⟨?_, ?_⟩,
    fun h h' hdma hpad => ?_⟩
  · rw [memWrite_prgRam v ⟨h, h'⟩ hp, Cart.ramOffset, Nat.mod_eq_of_lt (ramBank_lt _), ramBank_eq]
  · rw [memWrite_wram s v h]
    by_cases hb : b.toNat < 0x2000
    · simp [peek_wram _ hb, hb, wramIndex]
    · rw [if_neg (by omega), peek_withWram s _ (by omega)]
  · rw [memWrite_prgRam v ⟨h, h'⟩ hp]
    by_cases hb : b.toNat < 0x4020
    · rw [peek_withPrgRam s _ hb, if_neg (by rintro rfl; omega)]
    · rw [peek_cart _ (by omega), peek_cart _ (by omega), cpuRead_writeRam v ⟨h, h'⟩ hp]
  · rw [memWrite_cart s v (by omega), cpuWrite_ram v ⟨h, h'⟩, hp]
    rfl
  · rw [peek_cart s (by omega), cpuRead_ram ⟨h, h'⟩, hp]
    rfl
  · by_cases h17 : a = 0x4017
    · rw [h17, memWrite_pad2]
    by_cases hc : 0x4020 ≤ a.toNat
    · rw [memWrite_cart s v hc, cpuWrite_low v h']
    · exact memWrite_none s v h (by omega) (fun e => hdma (BitVec.eq_of_toNat_eq e))
        (fun e => hpad (BitVec.eq_of_toNat_eq e)) fun e => h17 (BitVec.eq_of_toNat_eq e)

/-- Settles O36: one write and one read of each port, then the buffers after the falling edge, read out. -/
theorem controllersShiftOutTheCommittedButtons : Obligations.ControllersShiftOutTheCommittedButtons := by
  refine ⟨fun s v => ⟨memWrite_strobe s v, ?_, ?_⟩, fun s n v w hv hw => ?_⟩
  · simp only [← padShift_value, ← padShift_buffer]
    exact memRead_pads s (.inl rfl)
  · simp only [← padShift_value, ← padShift_buffer]
    exact memRead_pads s (.inr rfl)
  · have hlatch := strobe_latches s hv hw
    refine ⟨?_, ?_⟩
    · rw [peek_readTimes (.inl rfl), hlatch]
      rfl
    · rw [peek_readTimes (.inr rfl), hlatch]
      rfl

/-- Settles O37: the stalls, then the 256 copies; OAMADDR has gone round once. -/
theorem oamDmaCopiesAPage : Obligations.OamDmaCopiesAPage := by
  refine ⟨fun s v => memWrite_dma s v rfl, fun s hr hq =>
    ⟨oamAfterCopies s 256, ?_, fun i hi => read_oamAfterCopies s le_rfl hi⟩⟩
  have hticks : s.cpu.dmaRemaining = 2 * 256 + (s.cpu.dmaRemaining - 512) := by omega
  have hcount : s.cpu.cycleCount + (s.cpu.dmaRemaining - 512) + 2 * 256 = s.cpu.cycleCount + s.cpu.dmaRemaining := by
    omega
  have haddr : s.ppu.oamaddr + BitVec.ofNat 8 256 = s.ppu.oamaddr := BitVec.add_zero _
  have hrun : cpuTickNext^[s.cpu.dmaRemaining] s = afterCopies s 256 := by
    rw [hticks, Function.iterate_add_apply, dmaTicks_stalls hr, dmaTicks_copies hq le_rfl]
  rw [cpuTicks_eq, hrun, afterCopies, hcount, haddr]
  rfl

end Sys2Proof.Machine
end

section
/-! SUPPORT. The mapper: what a read and a write of $8000-$FFFF reach, and each mapper's bank as a number (21 R116 to R133). -/

namespace Sys2Proof.Machine

theorem cpuWrite_mapper {c : Cart} {a : Addr} (v : Byte) (h : 0x8000 ≤ a.toNat) : c.cpuWrite a v = c.mapperWrite a v := by
  rw [Cart.cpuWrite, if_neg (by omega), if_neg (by omega)]

theorem memWrite_mapper {s : State} {a : Addr} (v : Byte) (h : 0x8000 ≤ a.toNat) :
    memWrite s a v = { s with cart := s.cart.mapperWrite a v } := by
  rw [memWrite_cart s v (by omega), cpuWrite_mapper v h]

theorem mapperWrite_nrom {c : Cart} (a : Addr) (v : Byte) (h : c.mapper = .nrom) : c.mapperWrite a v = c := by
  rw [Cart.mapperWrite, h]

theorem mapperWrite_mmc1 {c : Cart} (a : Addr) (v : Byte) (h : c.mapper = .mmc1) :
    c.mapperWrite a v = { c with mmc1 := c.mmc1.write a v } := by
  rw [Cart.mapperWrite, h]

theorem mapperWrite_uxrom {c : Cart} (a : Addr) (v : Byte) (h : c.mapper = .uxrom) :
    c.mapperWrite a v = { c with uxromBank := v } := by
  rw [Cart.mapperWrite, h]

theorem mapperWrite_cnrom {c : Cart} (a : Addr) (v : Byte) (h : c.mapper = .cnrom) :
    c.mapperWrite a v = { c with cnromBank := v } := by
  rw [Cart.mapperWrite, h]

theorem peek_rom {s : State} {a : Addr} (h : 0x8000 ≤ a.toNat) :
    peek s a = s.cart.prgRom.read (s.cart.prgOffset a) := by
  rw [peek_cart s (by omega), cpuRead_rom h]

theorem peek_ram {s : State} {a : Addr} (h : 0x6000 ≤ a.toNat ∧ a.toNat < 0x8000) :
    peek s a = if s.cart.prgRamPresent then s.cart.prgRam.read (s.cart.ramOffset a) else 0 := by
  rw [peek_cart s (by omega), cpuRead_ram h]

theorem ppuBusRead_chr {a : Addr} (c : Cart) (p : Ppu) (h : a.toNat < 0x2000) :
    ppuBusRead c p a = c.chr.read (c.chrOffset a.toNat) := by
  have ha : ppuAddr a = a.toNat := Nat.mod_eq_of_lt (by omega)
  simp only [ppuBusRead, ha, if_pos h, Cart.ppuRead]

theorem prgOffset_unbanked {c : Cart} (a : Addr) (h : c.mapper = .nrom ∨ c.mapper = .cnrom) :
    c.prgOffset a = (a.toNat - 0x8000) % (0x4000 * c.prgBanks16) := by
  rcases h with h | h <;> rw [Cart.prgOffset, h] <;> rfl

theorem prgOffset_uxrom {c : Cart} (a : Addr) (h : c.mapper = .uxrom) :
    c.prgOffset a =
      (if a.toNat < 0xC000 then c.uxromBank.toNat % c.prgBanks16 else c.prgBanks16 - 1) * 0x4000 + a.toNat % 0x4000 := by
  rw [Cart.prgOffset, h]

theorem prgOffset_mmc1 {c : Cart} (a : Addr) (h : c.mapper = .mmc1) :
    c.prgOffset a = c.mmc1PrgBank a % c.prgBanks16 * 0x4000 + a.toNat % 0x4000 := by
  rw [Cart.prgOffset, h]

/-- The MMC1's bank in each PRG mode (21 R125). -/
theorem mmc1PrgBank_eq (c : Cart) (a : Addr) :
    c.mmc1PrgBank a =
      match c.mmc1.prgMode with
      | .switch32 => c.mmc1Base + 2 * (c.mmc1.prgBank.toNat / 2) + (if a.toNat < 0xC000 then 0 else 1)
      | .fixFirst => c.mmc1Base + (if a.toNat < 0xC000 then 0 else c.mmc1.prgBank.toNat)
      | .fixSecond => c.mmc1Base + (if a.toNat < 0xC000 then c.mmc1.prgBank.toNat else min c.prgBanks16 16 - 1) := by
  unfold Cart.mmc1PrgBank
  cases c.mmc1.prgMode with
  | switch32 =>
    have heven : c.mmc1.prgBank.toNat - c.mmc1.prgBank.toNat % 2 = 2 * (c.mmc1.prgBank.toNat / 2) := by omega
    simp only [heven]
  | fixFirst => rfl
  | fixSecond => rfl

theorem chrOffset_unbanked {c : Cart} (a : Nat) (h : c.mapper = .nrom ∨ c.mapper = .uxrom) : c.chrOffset a = a := by
  rcases h with h | h <;> rw [Cart.chrOffset, h]

theorem chrOffset_cnrom {c : Cart} (a : Nat) (h : c.mapper = .cnrom) :
    c.chrOffset a = c.cnromBank.toNat % c.chrBanks8 * 0x2000 + a := by
  rw [Cart.chrOffset, h]

theorem chrOffset_mmc1 {c : Cart} (a : Nat) (h : c.mapper = .mmc1) :
    c.chrOffset a = c.mmc1ChrBank a % (2 * c.chrBanks8) * 0x1000 + a % 0x1000 := by
  rw [Cart.chrOffset, h]

/-- The MMC1's 4 KiB bank in each CHR mode (21 R127). -/
theorem mmc1ChrBank_eq (c : Cart) {a : Nat} (h : a < 0x2000) :
    c.mmc1ChrBank a =
      match c.mmc1.chrMode with
      | .full8 => 2 * (c.mmc1.chr0.toNat / 2) + a / 0x1000
      | .two4 => if a < 0x1000 then c.mmc1.chr0.toNat else c.mmc1.chr1.toNat := by
  unfold Cart.mmc1ChrBank
  cases c.mmc1.chrMode with
  | full8 =>
    have hhalf : (if a < 0x1000 then 0 else 1) = a / 0x1000 := by split <;> omega
    simp only [hhalf]
    omega
  | two4 => rfl

theorem ramOffset_eq {c : Cart} (a : Addr) :
    c.ramOffset a = (if c.mapper = .mmc1 ∧ c.chrIsRam = true then c.mmc1.chr0.toNat / 4 % 4 else 0) * 0x2000
      + a.toNat % 0x2000 := by
  rw [Cart.ramOffset, Nat.mod_eq_of_lt (ramBank_lt c), ramBank_eq]

/-- The MMC1 has its own mirroring, the others the header's (21 R117, R128, R131, R133). -/
theorem mirroring_eq (c : Cart) :
    c.mirroring = if c.mapper = .mmc1 then c.mmc1.mirroring else c.headerMirroring := by
  unfold Cart.mirroring
  cases c.mapper <;> rfl

end Sys2Proof.Machine
end

section
/-! SUPPORT. The MMC1's serial port: its shift register as a number, and the register that five bits reach (21 R118 to R124). -/

namespace Sys2Proof.Machine

open Sys2Proof.Claims

/-- The machine with another MMC1 state. -/
def State.withMmc1 (s : State) (m : Mmc1) : State := { s with cart := { s.cart with mmc1 := m } }

@[simp] theorem State.withMmc1_mmc1 (s : State) (m : Mmc1) : (s.withMmc1 m).cart.mmc1 = m := rfl

@[simp] theorem State.withMmc1_mapper (s : State) (m : Mmc1) : (s.withMmc1 m).cart.mapper = s.cart.mapper := rfl

@[simp] theorem State.withMmc1_withMmc1 (s : State) (m n : Mmc1) : (s.withMmc1 m).withMmc1 n = s.withMmc1 n := rfl

theorem memWrite_mmc1 {s : State} {a : Addr} (v : Byte) (hm : s.cart.mapper = .mmc1) (h : 0x8000 ≤ a.toNat) :
    memWrite s a v = s.withMmc1 (s.cart.mmc1.write a v) := by
  rw [memWrite_mapper v h, mapperWrite_mmc1 a v hm]
  rfl

/-- The shift register after bit 0 of `v` has come in at its top (21 R119). -/
def shiftIn (x : BitVec 5) (v : Byte) : BitVec 5 := (x >>> 1) ||| (if v.getLsbD 0 then 0x10 else 0)

theorem shiftIn_toNat (x : BitVec 5) (v : Byte) : (shiftIn x v).toNat = x.toNat / 2 + 16 * num (v.getLsbD 0) := by
  unfold shiftIn num
  generalize v.getLsbD 0 = b
  revert x b
  decide

/-- The marker is at the bottom when the number is odd. -/
theorem marker_iff (x : BitVec 5) : x.getLsbD 0 = true ↔ x.toNat % 2 = 1 := by
  revert x
  decide

theorem mmc1_write_reset {m : Mmc1} {v : Byte} (a : Addr) (hv : v.getLsbD 7 = true) :
    m.write a v = { m with shift := 0x10, prgMode := .fixSecond } := by
  rw [Mmc1.write, if_pos hv]

/-- A serial bit that is not the fifth (21 R119). -/
theorem mmc1_write_shift {m : Mmc1} {v : Byte} (a : Addr) (hv : v.getLsbD 7 = false) (hx : m.shift.toNat % 2 = 0) :
    m.write a v = { m with shift := shiftIn m.shift v } := by
  have hmark : ¬ m.shift.getLsbD 0 = true := by rw [marker_iff]; omega
  simp only [Mmc1.write, hv, if_neg hmark]
  rfl

/-- The fifth serial bit (21 R119, R120). -/
theorem mmc1_write_commit {m : Mmc1} {v : Byte} (a : Addr) (hv : v.getLsbD 7 = false) (hx : m.shift.toNat % 2 = 1) :
    m.write a v = { m.commit a (shiftIn m.shift v) with shift := 0x10 } := by
  simp only [Mmc1.write, hv, if_pos ((marker_iff _).2 hx)]
  rfl

/-- A serial write that is not the fifth, the shift register holding `x`: it moves down one place. -/
theorem memWrite_serial {s : State} {m : Mmc1} {x : BitVec 5} {a : Addr} {v : Byte} (hm : s.cart.mapper = .mmc1)
    (h : 0x8000 ≤ a.toNat) (hv : v.getLsbD 7 = false) (hx : x.toNat % 2 = 0) :
    ∃ y : BitVec 5, y.toNat = x.toNat / 2 + 16 * num (v.getLsbD 0) ∧
      memWrite (s.withMmc1 { m with shift := x }) a v = s.withMmc1 { m with shift := y } := by
  have hwrite := mmc1_write_shift (m := { m with shift := x }) a hv hx
  refine ⟨shiftIn x v, shiftIn_toNat x v, ?_⟩
  rw [memWrite_mmc1 v (by simpa using hm) h, State.withMmc1_withMmc1, State.withMmc1_mmc1, hwrite]

/-- The fifth serial write, the shift register holding `x`: the number it would hold next is committed. -/
theorem memWrite_serial_last {s : State} {m : Mmc1} {x : BitVec 5} {a : Addr} {v : Byte} (hm : s.cart.mapper = .mmc1)
    (h : 0x8000 ≤ a.toNat) (hv : v.getLsbD 7 = false) (hx : x.toNat % 2 = 1) :
    ∃ y : BitVec 5, y.toNat = x.toNat / 2 + 16 * num (v.getLsbD 0) ∧
      memWrite (s.withMmc1 { m with shift := x }) a v =
        s.withMmc1 { ({ m with shift := x } : Mmc1).commit a y with shift := 0x10 } := by
  have hwrite := mmc1_write_commit (m := { m with shift := x }) a hv hx
  refine ⟨shiftIn x v, shiftIn_toNat x v, ?_⟩
  rw [memWrite_mmc1 v (by simpa using hm) h, State.withMmc1_withMmc1, State.withMmc1_mmc1, hwrite]

/-- The register that `addr[14:13]` selects, by the address's range (21 R120). -/
theorem mmc1_select (a : Addr) : (a.extractLsb' 13 2).toNat = a.toNat / 0x2000 % 4 := by
  simp [BitVec.extractLsb'_toNat, Nat.shiftRight_eq_div_pow]

/-- The mirroring of a control commit's low two bits as a number (21 R121). -/
def mirroringOfNumber : Nat → Mirroring
  | 0 => .singleLower
  | 1 => .singleUpper
  | 2 => .vertical
  | _ => .horizontal

theorem mmc1Mirroring_eq (value : BitVec 5) : mmc1Mirroring value = mirroringOfNumber (value.toNat % 4) := by
  revert value
  decide

/-- The PRG mode of a control commit's next two bits as a number (21 R121). -/
def prgModeOfNumber : Nat → PrgMode
  | 2 => .fixFirst
  | 3 => .fixSecond
  | _ => .switch32

theorem mmc1PrgMode_eq (value : BitVec 5) : mmc1PrgMode value = prgModeOfNumber (value.toNat / 4 % 4) := by
  revert value
  decide

/-- The top bit of a control commit as a number (21 R121). -/
theorem controlTopBit_iff (value : BitVec 5) : value.getLsbD 4 = true ↔ value.toNat / 16 = 1 := by
  revert value
  decide

/-- The PRG bank that a commit of five bits leaves (21 R124). -/
theorem extractPrgBank (value : BitVec 5) : value.extractLsb' 0 4 = BitVec.ofNat 4 value.toNat := by
  apply BitVec.eq_of_toNat_eq
  simp

/-- What a commit writes, by the address's range (21 R120 to R124). -/
theorem mmc1_commit_eq (m : Mmc1) {a : Addr} (value : BitVec 5) (h : 0x8000 ≤ a.toNat) :
    m.commit a value =
      if a.toNat < 0xA000 then
        { m with
          mirroring := mirroringOfNumber (value.toNat % 4)
          prgMode := prgModeOfNumber (value.toNat / 4 % 4)
          chrMode := if value.toNat / 16 = 1 then .two4 else .full8 }
      else if a.toNat < 0xC000 then { m with chr0 := value }
      else if a.toNat < 0xE000 then { m with chr1 := value }
      else { m with prgBank := BitVec.ofNat 4 value.toNat } := by
  have hlt := a.isLt
  by_cases hA : a.toNat < 0xA000
  · have hsel : (a.extractLsb' 13 2).toNat = 0 := by rw [mmc1_select]; omega
    simp only [Mmc1.commit, hsel, if_pos hA, mmc1Mirroring_eq, mmc1PrgMode_eq, controlTopBit_iff]
  by_cases hC : a.toNat < 0xC000
  · have hsel : (a.extractLsb' 13 2).toNat = 1 := by rw [mmc1_select]; omega
    simp only [Mmc1.commit, hsel, if_neg hA, if_pos hC]
  by_cases hE : a.toNat < 0xE000
  · have hsel : (a.extractLsb' 13 2).toNat = 2 := by rw [mmc1_select]; omega
    simp only [Mmc1.commit, hsel, if_neg hA, if_neg hC, if_pos hE]
  · have hsel : (a.extractLsb' 13 2).toNat = 3 := by rw [mmc1_select]; omega
    simp only [Mmc1.commit, hsel, if_neg hA, if_neg hC, if_neg hE, extractPrgBank]

end Sys2Proof.Machine
end

section
/-! The family of file 21: the launch image, the MMC1's writes, the banks, and the offsets. -/

namespace Sys2Proof.Machine

open Sys2Proof.Claims

/-- Settles O11: a CPU tick is work, which keeps the launch image. -/
theorem noCpuTickChangesTheLaunchImage : Obligations.NoCpuTickChangesTheLaunchImage := by
  intro s t h
  obtain rfl : cpuTickNext s = t := Host.Outcome.next.inj ((cpuTick_eq s).symm.trans h)
  obtain ⟨mapper, prgRom, prgBanks16, chrBanks8, chrIsRam, chr, prgRamPresent, headerMirroring⟩ := (works_cpuTick s).rom
  exact ⟨mapper, prgRom, prgBanks16, chrBanks8, chrIsRam, prgRamPresent, headerMirroring, chr⟩

/-- Settles O54: the reset write. -/
theorem mmc1ResetWrite : Obligations.Mmc1ResetWrite := by
  intro s a v hm ha hv
  rw [memWrite_mmc1 v hm ha, mmc1_write_reset a hv]
  rfl

/-- Settles O55: the marker moves down one place with each write, so it is at the bottom at the fifth, when the five bits in
the shift register are the number that is committed. -/
theorem mmc1SerialWrites : Obligations.Mmc1SerialWrites := by
  intro s a1 a2 a3 a4 a5 v1 v2 v3 v4 v5 hm hempty ha hv m bit value four
  simp only [List.forall_mem_cons, List.not_mem_nil, false_implies, implies_true, and_true] at ha hv
  obtain ⟨ha1, ha2, ha3, ha4, ha5⟩ := ha
  obtain ⟨hv1, hv2, hv3, hv4, hv5⟩ := hv
  have hstart : s = s.withMmc1 { m with shift := 0x10 } := by rw [← hempty]; rfl
  have n0 : (0x10 : BitVec 5).toNat = 16 := rfl
  obtain ⟨x1, n1, w1⟩ := memWrite_serial (m := m) hm ha1 hv1 (x := 0x10) (by omega)
  obtain ⟨x2, n2, w2⟩ := memWrite_serial (m := m) hm ha2 hv2 (x := x1) (by omega)
  obtain ⟨x3, n3, w3⟩ := memWrite_serial (m := m) hm ha3 hv3 (x := x2) (by omega)
  obtain ⟨x4, n4, w4⟩ := memWrite_serial (m := m) hm ha4 hv4 (x := x3) (by omega)
  obtain ⟨y, n5, w5⟩ := memWrite_serial_last (m := m) hm ha5 hv5 (x := x4) (by omega)
  have hfour : four = s.withMmc1 { m with shift := x4 } := by rw [← w4, ← w3, ← w2, ← w1, ← hstart]
  have hvalue : y.toNat = value := by
    simp only [value, bit]
    omega
  have hy : y = BitVec.ofNat 5 value := by rw [← hvalue, BitVec.ofNat_toNat, BitVec.setWidth_eq]
  refine ⟨⟨x4, hfour⟩, ?_⟩
  rw [hfour, w5, mmc1_commit_eq _ y ha5, hvalue, hy, ← hempty]
  refine congrArg s.withMmc1 ?_
  split_ifs <;> rfl

/-- Settles O56, mapper by mapper: PRG-ROM, the bank writes, CHR memory, PRG-RAM, the open range, and the mirroring. -/
theorem uxromAndCnromBanks : Obligations.UxromAndCnromBanks := by
  intro s a v c n m low shows base bank chr0 ram
  refine ⟨fun h => ⟨fun hm => ?_, fun hm => ?_, fun hm => ?_, fun hm => ?_, fun hm => ?_, fun hm => ?_⟩,
    fun h => ⟨fun hm => ?_, fun hm => ?_, fun hm => ?_⟩, fun h h' hp => ?_, fun h h' hp => ?_, fun h h' => ?_,
    mirroring_eq c⟩
  · rw [peek_rom h, prgOffset_unbanked a hm]
  · show peek s a = _
    rw [peek_rom h, prgOffset_uxrom a hm]
  · show peek s a = _
    rw [peek_rom h, prgOffset_mmc1 a hm]
    exact congrArg (fun k => c.prgRom.read (k % n * 0x4000 + a.toNat % 0x4000)) (mmc1PrgBank_eq c a)
  · rw [memWrite_mapper v h, mapperWrite_nrom a v hm]
  · rw [memWrite_mapper v h, mapperWrite_uxrom a v hm]
  · rw [memWrite_mapper v h, mapperWrite_cnrom a v hm]
  · rw [ppuBusRead_chr c s.ppu h, chrOffset_unbanked _ hm]
  · rw [ppuBusRead_chr c s.ppu h, chrOffset_cnrom _ hm]
  · rw [ppuBusRead_chr c s.ppu h, chrOffset_mmc1 _ hm]
    exact congrArg (fun k => c.chr.read (k % (2 * c.chrBanks8) * 0x1000 + a.toNat % 0x1000)) (mmc1ChrBank_eq c h)
  · rw [peek_ram ⟨h, h'⟩, if_pos hp, ramOffset_eq]
  · rw [peek_ram ⟨h, h'⟩, if_neg (ne_true_of_eq_false hp)]
  · rw [peek_cart s h, cpuRead_low h']

/-- Settles O57: the offsets of each mapper, by the bank's remainder (21 R116). -/
theorem mappedOffsetsStayInside : Obligations.MappedOffsetsStayInside :=
  fun c a hprg hchr => ⟨fun _ => prgOffset_lt a hprg, fun ha => chrOffset_lt hchr ha, ramOffset_lt c a⟩

end Sys2Proof.Machine
end

section
/-! SUPPORT. What the bytes of a decoded instruction are, and that every instruction is one that some bytes decode to. -/

namespace Sys2Proof

/-- The operand of mode `m` whose bytes are `b` and `c`, low byte first; a byte the mode does not have is not looked at
(30 R141, 20 R87). -/
def Mode.operandOf (m : Mode) (b c : Byte) : Operand :=
  match m with
  | .imp => .imp
  | .acc => .acc
  | .imm => .imm b
  | .zp => .zp b
  | .zpX => .zpX b
  | .zpY => .zpY b
  | .abs => .abs (w16 c b)
  | .absX => .absX (w16 c b)
  | .absY => .absY (w16 c b)
  | .ind => .ind (w16 c b)
  | .indX => .indX b
  | .indY => .indY b
  | .rel => .rel b
  | .imp1 => .imp1

/-- Every operand is its mode's, of its bytes: an address is put together from its two halves. -/
theorem Operand.exists_bytes (o : Operand) : ∃ b c, o = o.mode.operandOf b c := by
  cases o with
  | imp | acc | imp1 => exact ⟨0, 0, rfl⟩
  | imm v | zp v | zpX v | zpY v | indX v | indY v | rel v => exact ⟨v, 0, rfl⟩
  | abs w | absX w | absY w | ind w => exact ⟨lo w, hi w, by simp only [Operand.mode, Mode.operandOf, w16_hi_lo]⟩

/-- The opcode map and the encoder's opcodes agree, constructor by constructor (30 R143). -/
theorem decodeOp_of_operand {i : Instr} {b c : Byte} (h : i.operand = i.operand.mode.operandOf b c) :
    decodeOp i.opcode b c = i := by
  cases i with
  | undef op => cases op <;> rfl
  | _ => cases h; dsimp only [Instr.opcode]; rfl

/-- Every instruction is in the opcode map, at its own opcode. -/
theorem exists_decodeOp_opcode (i : Instr) : ∃ b c, decodeOp i.opcode b c = i := by
  obtain ⟨b, c, h⟩ := i.operand.exists_bytes
  exact ⟨b, c, decodeOp_of_operand h⟩

/-- A decoded instruction encodes to its opcode and as many operand bytes as the mode has (30 R140, R141). -/
theorem encode_decodeOp (op b c : Byte) :
    encode (decodeOp op b c) = op :: [b, c].take (opInfo op).mode.operandBytes := by
  have hle := operandBytes_le (opInfo op).mode
  rw [encode, (decodeOp_opcode b c op).1, decodeOp_bytes]
  generalize (opInfo op).mode.operandBytes = n at hle
  match n, hle with
  | 0, _ | 1, _ => rfl
  | 2, _ => rw [lo_w16, hi_w16]; rfl

/-- A byte string that holds an opcode's operand bytes decodes; the other bytes are left over. -/
theorem decode_opcode_append {op b c : Byte} {rest : List Byte} :
    decode (op :: ([b, c].take (opInfo op).mode.operandBytes ++ rest)) = .ok (decodeOp op b c, rest) := by
  have hle := operandBytes_le (opInfo op).mode
  rw [decodeOp_used b c op]
  simp only [decode]
  generalize (opInfo op).mode.operandBytes = n at hle
  match n, hle with
  | 0, _ | 1, _ | 2, _ => rfl

/-- A list that is long enough begins with the mode's operand bytes. -/
theorem exists_operandBytes_append {m : Mode} {bytes : List Byte} (h : m.operandBytes ≤ bytes.length) :
    ∃ b c rest, bytes = [b, c].take m.operandBytes ++ rest := by
  have hle := operandBytes_le m
  generalize m.operandBytes = n at h hle
  match n, bytes, h, hle with
  | 0, rest, _, _ => exact ⟨0, 0, rest, rfl⟩
  | 1, b :: rest, _, _ => exact ⟨b, 0, rest, rfl⟩
  | 2, b :: c :: rest, _, _ => exact ⟨b, c, rest, rfl⟩

/-- Only missing operand bytes stop a decode after the opcode (30 R147). -/
theorem operandBytes_le_of_decode {op : Byte} {bytes rest : List Byte} {i : Instr}
    (h : decode (op :: bytes) = .ok (i, rest)) : (opInfo op).mode.operandBytes ≤ bytes.length := by
  simp only [decode] at h
  generalize (opInfo op).mode.operandBytes = n at h
  match n, bytes, h with
  | 0, _, _ => exact Nat.zero_le _
  | 1, _ :: _, _ => exact Nat.le_add_left 1 _
  | 2, _ :: _ :: _, _ => exact Nat.le_add_left 2 _

end Sys2Proof
end

section
/-! The family of file 30: the decoder and the encoder are inverse to each other. -/

namespace Sys2Proof

/-- Settles O1: every instruction is `decodeOp` of its opcode and two bytes, and `decode` reads those bytes back. -/
theorem decodeAfterEncode : Obligations.DecodeAfterEncode := by
  intro i rest
  obtain ⟨b, c, h⟩ := exists_decodeOp_opcode i
  rw [← h, encode_decodeOp]
  exact decode_opcode_append

/-- Settles O2: a string that decodes holds the operand bytes, which are those of the encoding; and a string that holds them
decodes. -/
theorem encodeAfterDecode : Obligations.EncodeAfterDecode := by
  refine ⟨fun bytes i rest h => ?_, fun op bytes hlen => ?_⟩
  · cases bytes with
    | nil => cases h
    | cons op bytes =>
      obtain ⟨b, c, t, rfl⟩ := exists_operandBytes_append (operandBytes_le_of_decode h)
      rw [decode_opcode_append] at h
      cases h
      rw [encode_decodeOp, List.cons_append]
  · obtain ⟨b, c, t, rfl⟩ := exists_operandBytes_append (m := (opInfo op).mode) (bytes := bytes)
      (by have := opInfo_bytes op; omega)
    exact ⟨_, _, decode_opcode_append⟩

/-- Settles O3: the decoder runs on each word. -/
theorem writtenWordsDecode : Obligations.WrittenWordsDecode :=
  ⟨rfl, rfl, rfl, rfl, rfl, rfl, rfl, rfl, rfl, rfl, rfl, rfl⟩

end Sys2Proof
end

section
/-! SUPPORT. A CPU tick case by case: the cycle of a DMA, the fetch of a decoded instruction, and the count (40 R160, R161). -/

namespace Sys2Proof.Machine

/-- A DMA cycle counts itself down; of the CPU it can write the DMA buffer besides, and it leaves work RAM (20 R84). -/
theorem dmaCycle_frame (s : State) :
    (dmaCycle s).cpu =
        { s.cpu with dmaRemaining := s.cpu.dmaRemaining - 1, dmaBuffer := (dmaCycle s).cpu.dmaBuffer }
      ∧ (dmaCycle s).wram = s.wram := by
  by_cases hstall : 512 < s.cpu.dmaRemaining
  · rw [dmaCycle_stall hstall]
    exact ⟨rfl, rfl⟩
  by_cases hread : (512 - s.cpu.dmaRemaining) % 2 = 0
  · rw [dmaCycle_read (by omega) hread]
    exact ⟨rfl, memRead_wram_eq _ _⟩
  · rw [dmaCycle_write (by omega) (by omega)]
    exact ⟨rfl, rfl⟩

theorem cpuTick_dma {s : State} (h : 0 < s.cpu.dmaRemaining) : cpuTick s = .next (countTick (dmaCycle s)) := by
  rw [cpuTick, if_pos h]

theorem cpuTick_count {s : State} (hdma : s.cpu.dmaRemaining = 0) (hcycles : 0 < s.cpu.cyclesUntilNext.toInt) :
    cpuTick s = .next (countDown s) := by
  rw [cpuTick, if_neg (by omega), if_neg (by omega)]

theorem cpuTick_instruction {s : State} (hdma : s.cpu.dmaRemaining = 0) (hcycles : s.cpu.cyclesUntilNext.toInt ≤ 0)
    (hnmi : s.cpu.nmiPending = false) : cpuTick s = andThen (executeInstruction s) countDown := by
  rw [cpuTick, if_neg (by omega), if_pos hcycles, if_neg (ne_true_of_eq_false hnmi)]

theorem andThen_andThen (r : Result) (f g : State → State) :
    andThen (andThen r f) g = andThen r fun x => g (f x) := by
  cases r <;> rfl

/-- Three bytes decode to what the opcode map gives for them, whichever of them it looks at. -/
theorem eq_decodeOp_of_decode {op b c : Byte} {i : Instr} {rest : List Byte} (h : decode [op, b, c] = .ok (i, rest)) :
    i = decodeOp op b c := by
  have hall := decode_opcode_append (op := op) (b := b) (c := c) (rest := [b, c].drop (opInfo op).mode.operandBytes)
  rw [List.take_append_drop, h] at hall
  cases hall
  rfl

theorem info_decodeOp (op b c : Byte) : (decodeOp op b c).info = opInfo op := by
  rw [Instr.info, (decodeOp_opcode b c op).1]

theorem encode_decodeOp_length (op b c : Byte) :
    (encode (decodeOp op b c)).length = (opInfo op).mode.operandBytes + 1 := by
  have hle := operandBytes_le (opInfo op).mode
  rw [encode_decodeOp, List.length_cons, List.length_take_of_le hle]

/-- The state after the reads of an instruction's fetch, PC being left alone: one read of each byte from PC on, but none of the
operand byte of an immediate *NOP (40 R161, 46 R272). -/
def afterFetchReads (i : Instr) (s : State) : State :=
  let s1 := afterRead s s.cpu.pc
  let s2 := afterRead s1 (s.cpu.pc + 1)
  if (encode i).length = 1 ∨ (i.mnemonic = .nopU ∧ i.info.mode = .imm) then s1
  else if (encode i).length = 2 then s2 else afterRead s2 (s.cpu.pc + 2)

/-- The fetch gives the instruction that the bytes at PC decode to, PC moved past it (40 R161, R162). -/
theorem fetch_of_decode {s : State} {i : Instr} {rest : List Byte} (h :
    let s1 := afterRead s s.cpu.pc
    let s2 := afterRead s1 (s.cpu.pc + 1)
    decode [peek s s.cpu.pc, peek s1 (s.cpu.pc + 1), peek s2 (s.cpu.pc + 2)] = .ok (i, rest)) :
    fetch s = (i, { afterFetchReads i s with
      cpu := { s.cpu with pc := s.cpu.pc + BitVec.ofNat 16 (encode i).length } }) := by
  obtain rfl := eq_decodeOp_of_decode h
  simp only [fetch_eq, afterFetchReads, encode_decodeOp_length, Instr.mnemonic, info_decodeOp]
  generalize peek s s.cpu.pc = op
  generalize peek (afterRead s s.cpu.pc) (s.cpu.pc + 1) = b
  generalize peek (afterRead (afterRead s s.cpu.pc) (s.cpu.pc + 1)) (s.cpu.pc + 2) = c
  have hused := decodeOp_used b c op
  have hle := operandBytes_le (opInfo op).mode
  match hn : (opInfo op).mode.operandBytes, hle with
  | 0, _ | 1, _ =>
    rw [hn] at hused
    simp [hused]
  | 2, _ =>
    have hmode : (opInfo op).mode ≠ .imm := fun e => by rw [e] at hn; cases hn
    simp [hmode]

end Sys2Proof.Machine
end

section
/-! SUPPORT. The addressing modes as arithmetic: indexing, the page test, the pointers, and a branch's target (40 R167 to
R179). -/

namespace Sys2Proof.Machine

open Sys2Proof.Claims

theorem toNat_zext16 (v : Byte) : (zext16 v).toNat = v.toNat := by
  have hv := v.isLt
  rw [zext16, BitVec.toNat_setWidth]
  omega

theorem zext16_eq_ofNat (v : Byte) : zext16 v = BitVec.ofNat 16 v.toNat := by
  rw [← toNat_zext16, BitVec.ofNat_toNat, BitVec.setWidth_eq]

theorem w16_eq_ofNat (h l : Byte) : w16 h l = BitVec.ofNat 16 (256 * h.toNat + l.toNat) := by
  rw [← toNat_w16, BitVec.ofNat_toNat, BitVec.setWidth_eq]

theorem toNat_hi (w : Addr) : (hi w).toNat = w.toNat / 256 := by
  have hw := w.isLt
  rw [hi, BitVec.extractLsb'_toNat, Nat.shiftRight_eq_div_pow]
  omega

theorem toNat_lo (w : Addr) : (lo w).toNat = w.toNat % 256 := by
  rw [lo, BitVec.extractLsb'_toNat]
  rfl

/-- The page-cross test compares the addresses' high bytes (40 R174). -/
theorem crosses_eq (base ea : Addr) : crosses base ea = decide (ea.toNat / 256 ≠ base.toNat / 256) := by
  rw [Bool.eq_iff_iff, crosses, bne_iff_ne, decide_eq_true_iff, ← toNat_hi, ← toNat_hi, ne_comm, ne_eq, ne_eq,
    BitVec.toNat_inj]

/-- An index added in page 0, which the sum does not leave (40 R171, R172). -/
theorem zeroPageSum_eq (a index : Byte) : zeroPageSum a index = BitVec.ofNat 16 ((a.toNat + index.toNat) % 256) := by
  rw [zeroPageSum, zext16_eq_ofNat, BitVec.toNat_add]

/-- An index added to an address, with the wrap of the address space and the page test (40 R174, R175). -/
theorem setIndexed_eq (s : State) (base : Addr) (index : Byte) :
    setIndexed s base index = s.setLatent (BitVec.ofNat 16 (base.toNat + index.toNat)) true
      (decide ((base.toNat + index.toNat) % 65536 / 256 ≠ base.toNat / 256)) := by
  have hsum : base + zext16 index = BitVec.ofNat 16 (base.toNat + index.toNat) := by
    apply BitVec.eq_of_toNat_eq
    rw [BitVec.toNat_add, toNat_zext16, BitVec.toNat_ofNat]
  rw [setIndexed, hsum, crosses_eq, BitVec.toNat_ofNat]

theorem peek_zext16 (s : State) (p : Byte) : peek s (zext16 p) = s.wram.read p.toNat := by
  have hp := p.isLt
  rw [peek_wram s (by rw [toNat_zext16]; omega), wramIndex, toNat_zext16, Nat.mod_eq_of_lt (by omega)]

theorem pagePointer_lt (s : State) (n : Nat) : pagePointer s n < 65536 := by
  have hl := (s.wram.read (n % 256)).isLt
  have hh := (s.wram.read ((n + 1) % 256)).isLt
  rw [pagePointer]
  omega

theorem pagePointer_toNat_add (s : State) (p q : Byte) :
    pagePointer s (p + q).toNat = pagePointer s (p.toNat + q.toNat) := by
  simp only [pagePointer, BitVec.toNat_add, Nat.mod_mod, Nat.mod_add_mod]

/-- A pointer of page 0 is read without a side effect, its second byte wrapping within the page (40 R177, R178). -/
theorem readZeroPagePointer_pagePointer (s : State) (p : Byte) :
    readZeroPagePointer s p = (BitVec.ofNat 16 (pagePointer s p.toNat), s) := by
  rw [readZeroPagePointer_eq, w16_eq_ofNat, peek_zext16, peek_zext16, BitVec.toNat_add, pagePointer,
    Nat.mod_eq_of_lt p.isLt, Nat.add_comm]
  rfl

/-- The masks of an indirect pointer's second address keep the page and move on within it (40 R176). -/
theorem indirectHighAddr_eq_w16 (p : Addr) : indirectHighAddr p = w16 (hi p) (lo (p + 1)) := by
  apply BitVec.eq_of_getLsbD_eq
  intro i hi
  have hpage : BitVec.getLsbD (0xFF00 : Addr) i = decide (8 ≤ i) := by decide +revert
  have hbyte : BitVec.getLsbD (0x00FF : Addr) i = decide (i < 8) := by decide +revert
  rw [indirectHighAddr, BitVec.getLsbD_or, BitVec.getLsbD_and, BitVec.getLsbD_and, getLsbD_w16, hpage, hbyte]
  by_cases h8 : i < 8
  · simp [lo, h8, show ¬ 8 ≤ i by omega]
  · simp [Sys2Proof.hi, h8, show 8 ≤ i by omega, show 8 + (i - 8) = i by omega, show i - 8 < 8 by omega]

/-- The second byte of an indirect pointer follows the first, but at the page's end it is the page's first (40 R176). -/
theorem indirectHighAddr_eq (p : Addr) : indirectHighAddr p = if p.toNat % 256 = 255 then p - 255 else p + 1 := by
  have hp := p.isLt
  have one : (1 : Addr).toNat = 1 := rfl
  have last : (255 : Addr).toNat = 255 := rfl
  apply BitVec.eq_of_toNat_eq
  rw [indirectHighAddr_eq_w16, toNat_w16, toNat_hi, toNat_lo, BitVec.toNat_add, one]
  split
  · rw [BitVec.toNat_sub, last]
    omega
  · rw [BitVec.toNat_add, one]
    omega

/-- A branch's target is relative to the next instruction (40 R179). -/
theorem branchTarget_eq (pc : Addr) (o : Byte) : pc + sext16 o = BitVec.ofInt 16 (pc.toNat + o.toInt) := by
  rw [sext16, BitVec.signExtend, BitVec.ofInt_add, BitVec.ofInt_natCast, BitVec.ofNat_toNat, BitVec.setWidth_eq]

/-- The page test of a branch, over the integers (40 R179). -/
theorem crosses_branchTarget (pc : Addr) (o : Byte) :
    crosses pc (BitVec.ofInt 16 (pc.toNat + o.toInt)) =
      decide ((pc.toNat + o.toInt) % 65536 / 256 ≠ pc.toNat / 256) := by
  rw [crosses_eq, BitVec.toNat_ofInt]
  exact decide_eq_decide.2 (by omega)

end Sys2Proof.Machine
end

section
/-! SUPPORT. The bus accesses of an instruction: what each mnemonic and each instruction can do outside the CPU (40 R166, R180
to R183). -/

namespace Sys2Proof.Machine

open Sys2Proof.Claims

/-- The mnemonics that load their operand in the immediate mode only (46 R269 to R271). -/
def immediateLoading : List Mnemonic := [.anc, .alr, .sbcU]

/-- The mnemonics that can load their operand from a device. -/
def deviceLoading : List Mnemonic :=
  [.lda, .ldx, .ldy, .adc, .sbc, .cmp, .cpx, .cpy, .and, .eor, .ora, .bit, .lax, .inc, .dec, .asl, .lsr, .rol, .ror, .slo,
   .rla, .sre, .rra, .dcp, .isc]

/-- The mnemonics that load their operand (40 R180). -/
def loading : List Mnemonic := deviceLoading ++ immediateLoading

/-- The stack bytes that a mnemonic pushes, S being `sp`: `pushesAt` of its instructions. -/
def pushedBy (m : Mnemonic) (sp : Byte) : List Nat :=
  if m ∈ [Mnemonic.pha, .php] then [stackByte sp]
  else if m = .jsr then [stackByte sp, stackByte (sp - 1)]
  else if m = .brk then [stackByte sp, stackByte (sp - 1), stackByte (sp - 2)]
  else []

theorem pushesAt_eq (i : Instr) (s : State) : pushesAt i s = pushedBy i.mnemonic s.cpu.s := rfl

/-- Two memories differ in the bytes of a list only. -/
def Memory.AgreeOff (l : List Nat) (m m' : Memory) : Prop := ∀ n, n ∉ l → m'.read n = m.read n

theorem Memory.AgreeOff.refl (l : List Nat) (m : Memory) : Memory.AgreeOff l m m := fun _ _ => rfl

theorem Memory.AgreeOff.write {l : List Nat} {m m' : Memory} (h : Memory.AgreeOff l m m') {a : Nat} (ha : a ∈ l)
    (v : Byte) : Memory.AgreeOff l m (m'.write a v) := by
  intro n hn
  rw [Memory.read_write, if_neg (by rintro rfl; exact hn ha), h n hn]

/-- What a mnemonic can do outside the CPU, from the state `s` in which its operand is resolved: push, if anything; load its
operand; store at its effective address; or load and then store (40 R166, R180, R181, R183). -/
inductive Accesses (m : Mnemonic) (o : Operand) (s t : State) : Prop where
  | pushes (hm : m ∉ storing) (hw : Memory.AgreeOff (pushedBy m s.cpu.s) s.wram t.wram)
      (ht : t = { s with cpu := t.cpu, wram := t.wram })
  | loads (hm : m ∉ storing) (hl : m ∈ loading) (ht : t = { (load o s).2 with cpu := t.cpu })
  | stores (hm : m ∈ storing) (v : Byte) (ht : t = { store o v s with cpu := t.cpu })
  | modifies (hm : m ∈ storing) (v : Byte) (ht : t = { store o v (load o s).2 with cpu := t.cpu })

/-- A mnemonic that works on the CPU's registers alone. -/
theorem Accesses.none {m : Mnemonic} {o : Operand} {s : State} {c : Cpu} (hm : m ∉ storing) :
    Accesses m o s { s with cpu := c } := .pushes hm (.refl _ _) rfl

/-- Every mnemonic makes the accesses of its kind and no other. -/
theorem performOf_accesses (m : Mnemonic) (o : Operand) (s : State) : Accesses m o s (performOf m o s) := by
  have first (a : Nat) (l : List Nat) : a ∈ a :: l := List.mem_cons_self
  have second (a b : Nat) (l : List Nat) : b ∈ a :: b :: l := List.mem_cons_of_mem _ (first b l)
  have third (a b c : Nat) (l : List Nat) : c ∈ a :: b :: c :: l := List.mem_cons_of_mem _ (second b c l)
  have unpushed {w : Memory} {l : List Nat} : Memory.AgreeOff l w w := .refl l w
  cases m <;> simp only [performOf]
  case pha | php =>
    simp only [pha, php, push_eq]
    exact .pushes (by decide) (unpushed.write (first _ _) _) rfl
  case jsr =>
    simp only [jsr, push16_eq]
    exact .pushes (by decide) ((unpushed.write (first _ _) _).write (second _ _ _) _) rfl
  case brk =>
    rw [brk, enterInterrupt_eq s _ _ brkVector (by decide) (by decide)]
    exact .pushes (by decide) (((unpushed.write (first _ _) _).write (second _ _ _) _).write (third _ _ _ _) _) rfl
  case rti => rw [rti, returnFromInterrupt_eq]; exact .none (by decide)
  case rts => rw [rts, pull16_eq]; exact .none (by decide)
  case plp => rw [plp, pull_eq]; exact .none (by decide)
  case pla => rw [pla, pull_eq]; exact .none (by decide)
  case lda | ldx | ldy | lax | adc | sbc | sbcU | cmp | cpx | cpy | and | eor | ora | bit | anc | alr =>
    exact .loads (by decide) (by decide) rfl
  case sta | stx | sty | sax => exact .stores (by decide) _ rfl
  case inc | dec | asl | lsr | rol | ror | slo | rla | sre | rra | dcp | isc => exact .modifies (by decide) _ rfl
  all_goals exact .none (by decide)

/-- A mnemonic that stores nothing, or stores in A, reads at most, and changes work RAM by what it pushes. -/
theorem Accesses.of_not_stores {m : Mnemonic} {o : Operand} {s t : State} (h : Accesses m o s t)
    (hs : ¬ (m ∈ storing ∧ o ≠ .acc)) :
    ∃ r, (r = s ∨ m ∈ loading ∧ r = (load o s).2) ∧ Memory.AgreeOff (pushedBy m s.cpu.s) s.wram t.wram
      ∧ t = { r with cpu := t.cpu, wram := t.wram } := by
  have hacc (hm : m ∈ storing) : o = .acc := by_contra fun ho => hs ⟨hm, ho⟩
  have unpushed {r : State} (hr : r.wram = s.wram) (ht : t = { r with cpu := t.cpu }) :
      Memory.AgreeOff (pushedBy m s.cpu.s) s.wram t.wram ∧ t = { r with cpu := t.cpu, wram := t.wram } := by
    rw [ht, ← hr]
    exact ⟨.refl _ _, rfl⟩
  cases h with
  | pushes hm hw ht => exact ⟨s, .inl rfl, hw, ht⟩
  | loads hm hl ht => exact ⟨_, .inr ⟨hl, rfl⟩, unpushed (load_wram o s) ht⟩
  | stores hm v ht | modifies hm v ht =>
    obtain rfl := hacc hm
    exact ⟨s, .inl rfl, unpushed rfl ht⟩

/-- A mnemonic that stores makes one bus write at its effective address, after a load if it makes one. -/
theorem Accesses.of_stores {m : Mnemonic} {o : Operand} {s t : State} (h : Accesses m o s t) (hm : m ∈ storing)
    (ho : o ≠ .acc) :
    ∃ r v, (r = s ∨ r = (load o s).2) ∧ t = { memWrite r r.cpu.operandAddr v with cpu := t.cpu } := by
  cases h with
  | pushes hn | loads hn => exact absurd hm hn
  | stores _ v ht => exact ⟨s, v, .inl rfl, store_memory ho v s ▸ ht⟩
  | modifies _ v ht => exact ⟨_, v, .inr rfl, store_memory ho v _ ▸ ht⟩

/-- An operand's mode is that of the instruction's row (30 R143). -/
theorem operand_mode (i : Instr) : i.operand.mode = i.info.mode := by
  obtain ⟨b, c, h⟩ := exists_decodeOp_opcode i
  rw [Instr.info, ← (decodeOp_opcode b c i.opcode).2, h]

/-- No row of the table that stores is a branch or has an indirect operand (30 R146). -/
theorem storing_row : ∀ op, (opInfo op).mnemonic ∈ storing →
    (opInfo op).penalty ≠ .branch ∧ (opInfo op).mode ≠ .ind := by
  apply forall_byte
  intro n h
  interval_cases n <;> decide

/-- The table's rows of ANC, ALR and *SBC are immediate (30 R146). -/
theorem immediateLoading_row : ∀ op, (opInfo op).mnemonic ∈ immediateLoading → (opInfo op).mode = .imm := by
  apply forall_byte
  intro n h
  interval_cases n <;> decide

/-- The bus accesses of an instruction, its operand resolved, are its mnemonic's; a branch makes none. -/
theorem exec_accesses (i : Instr) (s : State) :
    Accesses i.mnemonic i.operand (resolve i.operand s) (execNext i s) := by
  by_cases h : i.info.penalty = .branch
  · have hm : i.mnemonic ∉ storing := fun hm => (storing_row i.opcode hm).1 h
    rw [execNext_branch s h]
    split
    · exact .none hm
    · exact .none hm
  · rw [execNext_run s h]
    cases performOf_accesses i.mnemonic i.operand (resolve i.operand s) with
    | pushes hm hw ht => exact .pushes hm hw (by rw [charge, ht]; rfl)
    | loads hm hl ht => exact .loads hm hl (by rw [charge, ht]; rfl)
    | stores hm v ht => exact .stores hm v (by rw [charge, ht]; rfl)
    | modifies hm v ht => exact .modifies hm v (by rw [charge, ht]; rfl)

end Sys2Proof.Machine
end

section
/-! SUPPORT. An instruction that stores nothing: its reads, which may have side effects, and its pushes (20 R89). -/

namespace Sys2Proof.Machine

open Sys2Proof.Claims

theorem vAddr_lt (p : Ppu) : p.vAddr.toNat < 0x4000 := by
  rw [Ppu.vAddr, BitVec.toNat_and]
  exact Nat.lt_of_le_of_lt Nat.and_le_right (by decide)

/-- The byte of a register read is the PPU's own: below the palette PPUDATA gives the buffer (50 R289, R297). -/
theorem readRegister_value (c d : Cart) (p : Ppu) (r : Nat) :
    (Ppu.readRegister c p r).1 = (Ppu.readRegister d p r).1 := by
  unfold Ppu.readRegister
  split
  case h_3 =>
    simp only [Ppu.readData]
    split
    · rfl
    next hpal =>
      have ha : ppuAddr p.vAddr = p.vAddr.toNat := Nat.mod_eq_of_lt (vAddr_lt p)
      have h2 : ¬ p.vAddr.toNat < 0x2000 := by omega
      simp only [ppuBusRead, ha, if_neg hpal, if_neg h2]
  all_goals rfl

/-- A read gives the same byte in two machines that agree on what is behind its address (20 R70). -/
theorem peek_eq_of_devices {s t : State} {a : Addr}
    (hwram : a.toNat < 0x2000 → t.wram.read (wramIndex a) = s.wram.read (wramIndex a))
    (hppu : 0x2000 ≤ a.toNat → a.toNat < 0x4000 → t.ppu = s.ppu)
    (hpads : a = 0x4016 ∨ a = 0x4017 → t.pads = s.pads)
    (hcart : 0x4020 ≤ a.toNat → t.cart.cpuRead a = s.cart.cpuRead a) : peek t a = peek s a := by
  by_cases h2 : a.toNat < 0x2000
  · rw [peek_wram t h2, peek_wram s h2, hwram h2]
  by_cases h4 : a.toNat < 0x4000
  · rw [peek_ppu t (by omega) h4, peek_ppu s (by omega) h4, hppu (by omega) h4]
    exact readRegister_value _ _ _ _
  by_cases hp : a = 0x4016 ∨ a = 0x4017
  · rw [peek_pads t hp, peek_pads s hp, hpads hp]
  obtain ⟨h16, h17⟩ := not_or.1 hp
  by_cases hc : 0x4020 ≤ a.toNat
  · rw [peek_cart t hc, peek_cart s hc, hcart hc]
  · rw [peek_eq_zero t (by omega) (by omega) h16 h17, peek_eq_zero s (by omega) (by omega) h16 h17]

/-- The PPU's own memories: nametables, palette and OAM. -/
def Ppu.memories (p : Ppu) : Memory × Memory × Memory := (p.nt, p.pal, p.oam)

theorem memRead_memories (s : State) (a : Addr) : (memRead s a).2.ppu.memories = s.ppu.memories := by
  obtain ⟨hnt, hpal, hoam⟩ := memRead_ppuMemories s a
  simp only [Ppu.memories, hnt, hpal, hoam]

theorem load_memories (o : Operand) (s : State) : (load o s).2.ppu.memories = s.ppu.memories := by
  cases o with
  | acc | imm _ | imp | imp1 => rfl
  | _ => exact memRead_memories s _

theorem resolve_memories (o : Operand) (s : State) : (resolve o s).ppu.memories = s.ppu.memories := by
  cases o with
  | ind p => exact (memRead_memories _ _).trans (memRead_memories _ _)
  | _ => exact congrArg Ppu.memories (resolve_quiet (by trivial)).1

theorem quietPointer_of_readsQuietly {i : Instr} {s : State} (h : ReadsQuietly i s) : quietPointer i.operand := by
  obtain ⟨-, hptr⟩ := h
  rw [pointerAt] at hptr
  cases ho : i.operand with
  | ind p =>
    rw [ho] at hptr
    simpa [quietPointer, indirectHighAddr_eq] using hptr
  | _ => trivial

theorem Operand.eq_imm_of_mode {o : Operand} (h : o.mode = .imm) : ∃ v, o = .imm v := by
  cases o with
  | imm v => exact ⟨v, rfl⟩
  | _ => cases h

/-- What an instruction loads quietly is loaded without a trace: from A, with the fetch, or from a quiet address. -/
theorem load_of_readsQuietly {i : Instr} {s : State} (h : ReadsQuietly i s) (hl : i.mnemonic ∈ loading) :
    (load i.operand (resolve i.operand s)).2 = resolve i.operand s := by
  by_cases hacc : i.operand = .acc
  · rw [hacc]
    rfl
  by_cases himm : ∃ v, i.operand = .imm v
  · obtain ⟨v, hv⟩ := himm
    rw [hv]
    rfl
  · have hdevice : i.mnemonic ∈ deviceLoading := (List.mem_append.1 hl).resolve_right fun hm =>
      himm (Operand.eq_imm_of_mode ((operand_mode i).trans (immediateLoading_row i.opcode hm)))
    have hloads : loadsAt i s = some (eaOf i s) := if_pos ⟨hdevice, hacc, not_exists.1 himm⟩
    exact load_quiet (h.1 (eaOf i s) (by simp [hloads]))

/-- What an instruction that stores nothing leaves behind outside the CPU: its pushes in work RAM, and the side effects of its
reads, if they have any. -/
theorem exec_of_not_stores {i : Instr} (s : State) (hs : ¬ Stores i) :
    Memory.AgreeOff (pushesAt i s) s.wram (execNext i s).wram ∧ (execNext i s).cart = s.cart
      ∧ (execNext i s).ppu.memories = s.ppu.memories
      ∧ (ReadsQuietly i s → (execNext i s).ppu = s.ppu ∧ (execNext i s).pads = s.pads) := by
  obtain ⟨r, hr, hw, ht⟩ := (exec_accesses i s).of_not_stores hs
  rw [resolve_wram, resolve_s, ← pushesAt_eq] at hw
  have hcart : r.cart = s.cart := by obtain rfl | ⟨-, rfl⟩ := hr <;> simp
  have hmem : r.ppu.memories = s.ppu.memories := by
    obtain rfl | ⟨-, rfl⟩ := hr
    · exact resolve_memories _ _
    · exact (load_memories _ _).trans (resolve_memories _ _)
  have hquiet (hq : ReadsQuietly i s) : r = resolve i.operand s := by
    obtain rfl | ⟨hl, rfl⟩ := hr
    · rfl
    · exact load_of_readsQuietly hq hl
  refine ⟨hw, by rw [ht, ← hcart], by rw [ht, ← hmem], fun hq => ?_⟩
  rw [ht, hquiet hq]
  exact resolve_quiet (quietPointer_of_readsQuietly hq)

end Sys2Proof.Machine
end

section
/-! SUPPORT. An instruction that stores: where its accesses can be seen, region by region (20 R71, R72). -/

namespace Sys2Proof.Machine

open Sys2Proof.Claims

/-- Where a read or a write at `ea` can be seen from: work RAM at the mirrors of the byte, the PPU and the controllers at all
their addresses, PRG-RAM at the byte, and a mapper register in the banked memories (20 R72, R76, R77; 21 R113). -/
def Seen (ea a : Addr) : Prop :=
  if ea.toNat < 0x2000 then a.toNat < 0x2000 ∧ a.toNat % 0x800 = ea.toNat % 0x800
  else if ea.toNat < 0x4000 then 0x2000 ≤ a.toNat ∧ a.toNat < 0x4000
  else if ea = 0x4016 ∨ ea = 0x4017 then a = 0x4016 ∨ a = 0x4017
  else if ea.toNat < 0x6000 then False
  else if ea.toNat < 0x8000 then a = ea
  else 0x6000 ≤ a.toNat

section
variable {ea a : Addr}

theorem seen_wram (h : ea.toNat < 0x2000) :
    Seen ea a ↔ a.toNat < 0x2000 ∧ a.toNat % 0x800 = ea.toNat % 0x800 := by
  rw [Seen, if_pos h]

theorem seen_ppu (h : 0x2000 ≤ ea.toNat) (h' : ea.toNat < 0x4000) :
    Seen ea a ↔ 0x2000 ≤ a.toNat ∧ a.toNat < 0x4000 := by
  rw [Seen, if_neg (by omega), if_pos h']

theorem seen_pads (h : ea = 0x4016 ∨ ea = 0x4017) : Seen ea a ↔ a = 0x4016 ∨ a = 0x4017 := by
  have hpads := isPad_toNat h
  rw [Seen, if_neg (by omega), if_neg (by omega), if_pos h]

theorem not_seen_of_unclaimed (h : 0x4000 ≤ ea.toNat) (h' : ea.toNat < 0x6000) (h16 : ea ≠ 0x4016)
    (h17 : ea ≠ 0x4017) : ¬ Seen ea a := by
  rw [Seen, if_neg (by omega), if_neg (by omega), if_neg (not_or.2 ⟨h16, h17⟩), if_pos h']
  exact id

theorem not_pads_of_cart (h : 0x6000 ≤ ea.toNat) : ¬ (ea = 0x4016 ∨ ea = 0x4017) := by
  intro hp
  have hpads := isPad_toNat hp
  omega

theorem seen_prgRam (h : 0x6000 ≤ ea.toNat) (h' : ea.toNat < 0x8000) : Seen ea a ↔ a = ea := by
  rw [Seen, if_neg (by omega), if_neg (by omega), if_neg (not_pads_of_cart h), if_neg (by omega), if_pos h']

theorem seen_mapper (h : 0x8000 ≤ ea.toNat) : Seen ea a ↔ 0x6000 ≤ a.toNat := by
  rw [Seen, if_neg (by omega), if_neg (by omega), if_neg (not_pads_of_cart (by omega)), if_neg (by omega),
    if_neg (by omega)]

/-- A read is seen in its device only, if at all. -/
theorem peek_memRead (s : State) (h : ¬ Seen ea a) : peek (memRead s ea).2 a = peek s a := by
  cases hq : readHasSideEffect ea with
  | false => rw [memRead_quiet hq]
  | true =>
    obtain ⟨h2, h4, -⟩ | hp := (readHasSideEffect_iff ea).1 hq
    · rw [seen_ppu h2 h4] at h
      rw [memRead_ppu s h2 h4]
      exact peek_withCpuPpu s s.cpu _ h
    · rw [seen_pads hp] at h
      rw [memRead_pads s (isPad_toNat hp)]
      exact peek_eq_of_devices (fun _ => rfl) (fun _ _ => rfl) (fun ha => absurd ha h) fun _ => rfl

/-- The CPU's reads of the cartridge do not look at CHR memory. -/
theorem cpuRead_ppuWrite (c : Cart) (n : Nat) (v : Byte) (a : Addr) : (c.ppuWrite n v).cpuRead a = c.cpuRead a := by
  unfold Cart.ppuWrite
  split <;> rfl

theorem cpuRead_writeRegister (c : Cart) (p : Ppu) (r : Nat) (v : Byte) (a : Addr) :
    (Ppu.writeRegister c p r v).1.cpuRead a = c.cpuRead a := by
  unfold Ppu.writeRegister
  split
  case h_7 =>
    simp only [Ppu.writeData, ppuBusWrite_eq]
    split
    · exact cpuRead_ppuWrite _ _ _ _
    · rfl
  all_goals rfl

/-- A write is seen in what it stores to only. -/
theorem peek_memWrite (s : State) (v : Byte) (h : ¬ Seen ea a) : peek (memWrite s ea v) a = peek s a := by
  obtain ⟨-, -, hwram, hprgRam, habsent, hdropped⟩ := memoryReadsBackWhatWasWritten s ea v
  by_cases h2 : ea.toNat < 0x2000
  · rw [hwram h2, if_neg (mt (seen_wram h2).2 h)]
  by_cases h4 : ea.toNat < 0x4000
  · rw [seen_ppu (by omega) h4] at h
    rw [memWrite_ppu s v (by omega) h4]
    exact peek_eq_of_devices (fun _ => rfl) (fun hlo hhi => absurd ⟨hlo, hhi⟩ h) (fun _ => rfl)
      fun _ => cpuRead_writeRegister _ _ _ _ _
  by_cases hp : ea = 0x4016 ∨ ea = 0x4017
  · rw [seen_pads hp] at h
    rw [memWrite_pads s v (isPad_toNat hp)]
    exact peek_eq_of_devices (fun _ => rfl) (fun _ _ => rfl) (fun ha => absurd ha h) fun _ => rfl
  by_cases hd : ea.toNat = 0x4014
  · rw [memWrite_dma s v hd]
    exact peek_withCpu _ _ _
  by_cases h6 : ea.toNat < 0x6000
  · rw [hdropped (by omega) h6 (by rintro rfl; exact hd rfl) fun e => hp (.inl e)]
  by_cases h8 : ea.toNat < 0x8000
  · cases hram : s.cart.prgRamPresent with
    | true => rw [hprgRam (by omega) h8 hram, if_neg (mt (seen_prgRam (by omega) h8).2 h)]
    | false => rw [(habsent (by omega) h8 hram).1]
  · rw [seen_mapper (by omega)] at h
    rw [memWrite_mapper v (by omega)]
    exact peek_eq_of_devices (fun _ => rfl) (fun _ _ => rfl) (fun _ => rfl)
      fun _ => by rw [cpuRead_low (by omega), cpuRead_low (by omega)]

theorem peek_load (o : Operand) (s : State) (h : ¬ Seen s.cpu.operandAddr a) : peek (load o s).2 a = peek s a := by
  cases o with
  | acc | imm _ | imp | imp1 => rfl
  | _ => exact peek_memRead s h

theorem peek_resolve {o : Operand} (s : State) (h : o.mode ≠ .ind) (a : Addr) : peek (resolve o s) a = peek s a := by
  have hquiet : quietPointer o := by
    cases o with
    | ind p => exact absurd rfl h
    | _ => trivial
  obtain ⟨hppu, hpads⟩ := resolve_quiet (s := s) hquiet
  exact peek_congr a hppu (resolve_cart o s) (resolve_wram o s) hpads

/-- An instruction that stores is seen only where an access at its effective address is. -/
theorem peek_exec_of_stores {i : Instr} (s : State) (hs : Stores i) (h : ¬ Seen (eaOf i s) a) :
    peek (execNext i s) a = peek s a := by
  obtain ⟨hm, ho⟩ := hs
  obtain ⟨r, v, hr, ht⟩ := (exec_accesses i s).of_stores hm ho
  have hmode : i.operand.mode ≠ .ind := operand_mode i ▸ (storing_row i.opcode hm).2
  have hread : r.cpu.operandAddr = eaOf i s ∧ peek r a = peek (resolve i.operand s) a := by
    obtain rfl | rfl := hr
    · exact ⟨rfl, rfl⟩
    · exact ⟨by rw [load_cpu]; rfl, peek_load _ _ h⟩
  obtain ⟨hea, hpeek⟩ := hread
  calc peek (execNext i s) a = peek (memWrite r (eaOf i s) v) a := by rw [ht, peek_withCpu, hea]
    _ = peek r a := peek_memWrite r v h
    _ = peek (resolve i.operand s) a := hpeek
    _ = peek s a := peek_resolve s hmode a

end

end Sys2Proof.Machine
end

section
/-! The family of file 40: the CPU tick, the fetch, the addressing modes, and what an instruction leaves of memory. -/

namespace Sys2Proof.Machine

open Sys2Proof.Claims

/-- Settles O13, mode by mode: each resolution is the latent operand state set, at the address that the arithmetic gives. -/
theorem addressingModes : Obligations.AddressingModes := by
  intro s a w x y pc
  have pointer (p : Byte) := readZeroPagePointer_pagePointer s p
  have hlt := Nat.mod_eq_of_lt (pagePointer_lt s a.toNat)
  refine ⟨?_, rfl, congrArg (s.setLatent · true false) (zext16_eq_ofNat a),
    congrArg (s.setLatent · true false) (zeroPageSum_eq a s.cpu.x),
    congrArg (s.setLatent · true false) (zeroPageSum_eq a s.cpu.y), rfl, setIndexed_eq s w s.cpu.x,
    setIndexed_eq s w s.cpu.y, ?indX, ?indY, ?rel, ?ind, rfl, rfl, fun v => rfl, ?access⟩
  · rintro o (rfl | rfl | rfl) <;> rfl
  case indX =>
    simp only [ResolvesTo, resolve, pointer, pagePointer_toNat_add]
    rfl
  case indY =>
    simp only [ResolvesTo, resolve, pointer, setIndexed_eq, BitVec.toNat_ofNat, hlt]
    rfl
  case rel =>
    simp only [ResolvesTo, resolve, branchTarget_eq, crosses_branchTarget]
    rfl
  case ind =>
    simp only [← indirectHighAddr_eq, ← w16_eq_ofNat, resolve]
    rw [readPair_state]
    rfl
  case access =>
    intro o ho
    simp only [List.mem_cons, List.not_mem_nil, or_false] at ho
    rcases ho with rfl | rfl | rfl | rfl | rfl | rfl | rfl | rfl <;> exact ⟨rfl, fun _ => rfl⟩

/-- Settles O31: outside the CPU such an instruction leaves its pushes and its reads' side effects, which quiet reads have
not; and a read sees no more than the devices. -/
theorem nonStoringInstructionsKeepMemory : Obligations.NonStoringInstructionsKeepMemory := by
  intro i s t h hs
  obtain rfl := execNext_of_exec h
  obtain ⟨hwram, hcart, hmem, hquiet⟩ := exec_of_not_stores s hs
  simp only [Ppu.memories, Prod.mk.injEq] at hmem
  obtain ⟨hnt, hpal, hoam⟩ := hmem
  refine ⟨hwram, hcart, hnt, hpal, hoam, fun hq a ha => ?_⟩
  obtain ⟨hppu, hpads⟩ := hquiet hq
  exact peek_eq_of_devices (fun h2 => hwram _ fun hpushed => ha ⟨h2, hpushed⟩) (fun _ _ => hppu) (fun _ => hpads)
    fun _ => by rw [hcart]

/-- Settles O32, region by region of the effective address: none of the addresses spoken of sees an access there. -/
theorem storingInstructionsChangeOnlyTheirCell : Obligations.StoringInstructionsChangeOnlyTheirCell := by
  intro i s t h hs ea
  obtain rfl := execNext_of_exec h
  have unseen {a : Addr} (ha : ¬ Seen ea a) : peek (execNext i s) a = peek s a := peek_exec_of_stores s hs ha
  exact ⟨fun h2 a ha => unseen (mt (seen_wram h2).1 ha), fun h2 h4 a ha => unseen (mt (seen_ppu h2 h4).1 ha),
    fun hp a h16 h17 => unseen (mt (seen_pads hp).1 (not_or.2 ⟨h16, h17⟩)),
    fun h4 h6 h16 h17 a => unseen (not_seen_of_unclaimed h4 h6 h16 h17),
    fun h6 h8 a ha => unseen (mt (seen_prgRam h6 h8).1 ha),
    fun h8 a ha => unseen (mt (seen_mapper h8).1 (by omega))⟩

/-- Settles O39: the first and the last branch of a CPU tick. -/
theorem dmaFirstAndInstructionsAreNotInterrupted : Obligations.DmaFirstAndInstructionsAreNotInterrupted := by
  refine fun s => ⟨fun hdma => ⟨_, cpuTick_dma hdma, ?_⟩, cpuTick_count⟩
  obtain ⟨hcpu, hwram⟩ := dmaCycle_frame s
  simp only [countTick]
  rw [hcpu]
  exact ⟨rfl, rfl, rfl, rfl, rfl, rfl, rfl, rfl, rfl, hwram, rfl⟩

/-- Settles O4: at an instruction boundary the CPU tick executes an instruction, and the fetch gives the decoded one. -/
theorem stepRunsTheDecodedInstruction : Obligations.StepRunsTheDecodedInstruction := by
  refine ⟨fun s => rfl, ?_⟩
  intro s i rest t pc r0 r1 r2 hdma hcycles hnmi hdecode
  have hfetch : fetch t = (i, { afterFetchReads i t with
      cpu := { t.cpu with pc := pc + BitVec.ofNat 16 (encode i).length } }) := fetch_of_decode hdecode
  show andThen (cpuTick t) closeFrame = _
  rw [cpuTick_instruction hdma hcycles hnmi, executeInstruction, hfetch, andThen_andThen]
  rfl

end Sys2Proof.Machine
end

section
/-! SUPPORT. A form of the statements as a row of the table: what its instruction performs, is charged and encodes to (30 R146,
40 R161). -/

namespace Sys2Proof

/-- The table's length of an instruction is that of its encoding (30 R141, R146). -/
theorem encode_length (i : Instr) : (encode i).length = i.info.bytes := by
  obtain ⟨b, c, h⟩ := exists_decodeOp_opcode i
  rw [Instr.info, opInfo_bytes, Nat.add_comm, ← Machine.encode_decodeOp_length i.opcode b c, h]

end Sys2Proof

namespace Sys2Proof.Machine

open Sys2Proof.Claims

/-- Registers as `c` has them, with the latent operand state of `t` (10 R30). -/
def Cpu.latentFrom (c t : Cpu) : Cpu :=
  { c with operandAddr := t.operandAddr, isMemoryOperand := t.isMemoryOperand, pageCrossed := t.pageCrossed }

theorem resolve_cpu (o : Operand) (s : State) : (resolve o s).cpu = s.cpu.latentFrom (resolve o s).cpu :=
  congrArg State.cpu (resolve_state o s)

theorem memWrite_pageCrossed (s : State) (a : Addr) (v : Byte) : (memWrite s a v).cpu.pageCrossed = s.cpu.pageCrossed := by
  rw [memWrite_cpu]
  split <;> rfl

/-- A bus write commutes with a change of the CPU that the start of a DMA commutes with. -/
theorem memWrite_mapCpu {g : Cpu → Cpu} {v : Byte} (hg : ∀ c : Cpu, (g c).startDma v = g (c.startDma v)) (s : State)
    (a : Addr) : memWrite { s with cpu := g s.cpu } a v = { memWrite s a v with cpu := g (memWrite s a v).cpu } := by
  unfold memWrite
  split
  case h_4 => exact congrArg (fun c => { s with cpu := c }) (hg s.cpu)
  all_goals rfl

end Sys2Proof.Machine

namespace Sys2Proof.Claims

open Sys2Proof.Machine

/-- The mnemonics that store without a load (40 R184). -/
def storingOnly : List Mnemonic := [.sta, .stx, .sty, .sax]

/-- No row of the table that stores only is in the accumulator mode (30 R146). -/
theorem storingOnly_row : ∀ op, (opInfo op).mnemonic ∈ storingOnly → (opInfo op).mode ≠ .acc := by
  apply forall_byte
  intro n h
  interval_cases n <;> decide

/-- The penalty class of a form (40 R182). -/
def Form.penalty (f : Form) : Penalty := if f.page then .page else .none

/-- The form is its instruction's: the opcode, the operand, and the opcode's row in the table, which is one of mnemonic `m`
(30 R146). -/
def Form.IsRow (f : Form) (m : Mnemonic) : Prop :=
  (f.instr.opcode, f.instr.operand, opInfo f.opcode) =
    (f.opcode, f.operand, ⟨m, f.operand.mode, f.bytes, f.base, f.penalty⟩)

theorem Form.penalty_ne_branch (f : Form) : f.penalty ≠ .branch := by
  unfold Form.penalty
  split <;> decide

theorem Form.charge_eq (f : Form) {s t : State} (ht : t.cpu.pageCrossed = (f.resolved s).cpu.pageCrossed) :
    charge f.base f.penalty 0 t = { t with cpu := { t.cpu with cyclesUntilNext := f.cycles s } } := by
  have hp : pagePenalty f.penalty t = if f.page && (f.resolved s).cpu.pageCrossed then 1 else 0 := by
    rw [← ht]
    cases h : f.page <;> simp [Form.penalty, pagePenalty, h]
  rw [charge, hp]
  rfl

/-- Resolving leaves the machine as `Form.after` has it, but for the charge. -/
theorem Form.quiet_eq (f : Form) (s : State) :
    f.quiet s s.cpu =
      { f.resolved s with cpu := { (f.resolved s).cpu with cyclesUntilNext := f.cycles s } } := by
  rw [Form.resolved, resolve_state]
  rfl

/-- Loading the resolved operand leaves the machine as `Form.after` has it, but for the registers and the charge. -/
theorem Form.loaded_eq (f : Form) (s : State) (c : Cpu) :
    f.loaded s c = { (load f.operand (f.resolved s)).2 with
      cpu := { c.latentFrom (f.resolved s).cpu with cyclesUntilNext := f.cycles s } } := by
  rw [Form.resolved, load_resolve_state]
  rfl

/-- Z and N as `setZN` writes them (00 R11). -/
theorem flagsAre_withZN (p v : Byte) : FlagsAre p (withZN p v) (zn v) := by
  intro f
  rw [flagOf_withZN]
  cases f <;> rfl

section
variable {f : Form} {m : Mnemonic}

theorem Form.IsRow.info (h : f.IsRow m) :
    f.instr.operand = f.operand ∧ f.instr.info = ⟨m, f.operand.mode, f.bytes, f.base, f.penalty⟩ := by
  have hop : f.instr.opcode = f.opcode := congrArg (·.1) h
  exact ⟨congrArg (·.2.1) h, by rw [Instr.info, hop]; exact congrArg (·.2.2) h⟩

theorem Form.IsRow.encodes (h : f.IsRow m) : f.Encodes := by
  obtain ⟨ho, hinfo⟩ := h.info
  exact ⟨congrArg (·.1) h, ho, by rw [encode_length, hinfo]⟩

theorem Form.IsRow.operand_ne_acc (h : f.IsRow m) (hm : m ∈ storingOnly) : f.operand ≠ .acc := by
  have hrow := storingOnly_row f.opcode
  rw [show opInfo f.opcode = _ from congrArg (·.2.2) h] at hrow
  exact mt (congrArg Operand.mode) (hrow hm)

/-- A form's instruction resolves its operand, performs what its mnemonic does, and is charged (40 R161). -/
theorem Form.IsRow.exec_eq (h : f.IsRow m) (s : State) :
    exec f.instr s = .next (charge f.base f.penalty 0 (performOf m f.operand (f.resolved s))) := by
  obtain ⟨ho, hinfo⟩ := h.info
  rw [exec_run _ s (by rw [hinfo]; exact f.penalty_ne_branch), Instr.mnemonic, hinfo, ho]
  rfl

/-- An instruction that loads its operand and then works on the registers alone. -/
theorem Form.IsRow.exec_of_loads (h : f.IsRow m) {g : Byte → Cpu → Cpu}
    (hperf : ∀ o t, performOf m o t = { (load o t).2 with cpu := g (load o t).1 (load o t).2.cpu })
    (hg : ∀ v c t, g v (c.latentFrom t) = (g v c).latentFrom t) (s : State) :
    exec f.instr s = .next (f.loaded s (g (f.src s) s.cpu)) := by
  have hcpu : g (f.src s) (load f.operand (f.resolved s)).2.cpu
      = (g (f.src s) s.cpu).latentFrom (f.resolved s).cpu := by
    rw [← hg, load_cpu]
    exact congrArg (g (f.src s)) (resolve_cpu f.operand s)
  rw [h.exec_eq, hperf, f.loaded_eq, ← hcpu]
  have hcrossed : (g (f.src s) (load f.operand (f.resolved s)).2.cpu).pageCrossed = (f.resolved s).cpu.pageCrossed := by
    rw [hcpu]
    rfl
  exact congrArg _ (f.charge_eq hcrossed)

/-- An instruction that loads a byte, puts it in registers and sets Z and N from it (00 R11). -/
theorem Form.IsRow.exec_of_loads_setZN (h : f.IsRow m) {put : Byte → Cpu → Cpu}
    (hperf : ∀ o t, performOf m o t = { (load o t).2 with
      cpu := { put (load o t).1 (load o t).2.cpu with p := withZN (load o t).2.cpu.p (load o t).1 } })
    (hput : ∀ v c t, put v (c.latentFrom t) = (put v c).latentFrom t) (s : State) :
    ∃ p, FlagsAre s.cpu.p p (zn (f.src s)) ∧
      exec f.instr s = .next (f.loaded s { put (f.src s) s.cpu with p := p }) :=
  ⟨_, flagsAre_withZN _ _, h.exec_of_loads (g := fun v c => { put v c with p := withZN c.p v }) hperf
    (fun v c t => by rw [hput]; rfl) s⟩

/-- An instruction that stores a value of the registers, without a load and without a change of the registers. -/
theorem Form.IsRow.exec_of_stores (h : f.IsRow m) (hm : m ∈ storingOnly) {val : Cpu → Byte}
    (hperf : ∀ o t, performOf m o t = store o (val t.cpu) t) (hval : ∀ c t, val (c.latentFrom t) = val c) (s : State) :
    exec f.instr s = .next (f.stored s (val s.cpu)) := by
  have hv : val (f.resolved s).cpu = val s.cpu := by
    rw [← hval s.cpu (f.resolved s).cpu]
    exact congrArg val (resolve_cpu f.operand s)
  rw [h.exec_eq, hperf, hv, store_memory (h.operand_ne_acc hm), f.charge_eq (memWrite_pageCrossed _ _ _), Form.stored,
    f.quiet_eq]
  exact congrArg _ (memWrite_mapCpu (g := fun c => { c with cyclesUntilNext := f.cycles s }) (fun _ => rfl) _ _).symm

end

end Sys2Proof.Claims
end

section
/-! The family of file 41: load and store. -/

namespace Sys2Proof.Machine

open Sys2Proof.Claims

-- The rows of the statements are those of the table: each list is compared with it, row by row (30 R146, 41 R191 to R196).

theorem ldaForms_isRow (v a : Byte) (w : Addr) : ∀ f ∈ ldaForms v a w, f.IsRow .lda :=
  List.map_inj_left.1 (by dsimp only [ldaForms, List.map]; rfl)

theorem ldxForms_isRow (v a : Byte) (w : Addr) : ∀ f ∈ ldxForms v a w, f.IsRow .ldx :=
  List.map_inj_left.1 (by dsimp only [ldxForms, List.map]; rfl)

theorem ldyForms_isRow (v a : Byte) (w : Addr) : ∀ f ∈ ldyForms v a w, f.IsRow .ldy :=
  List.map_inj_left.1 (by dsimp only [ldyForms, List.map]; rfl)

theorem staForms_isRow (v a : Byte) (w : Addr) : ∀ f ∈ staForms v a w, f.IsRow .sta :=
  List.map_inj_left.1 (by dsimp only [staForms, List.map]; rfl)

theorem stxForms_isRow (v a : Byte) (w : Addr) : ∀ f ∈ stxForms v a w, f.IsRow .stx :=
  List.map_inj_left.1 (by dsimp only [stxForms, List.map]; rfl)

theorem styForms_isRow (v a : Byte) (w : Addr) : ∀ f ∈ styForms v a w, f.IsRow .sty :=
  List.map_inj_left.1 (by dsimp only [styForms, List.map]; rfl)

/-- Settles O14: LDA, LDX and LDY load a byte, write one register and set Z and N. -/
theorem loadResults : Obligations.LoadResults := by
  intro v a w s
  refine ⟨fun f hf => ?lda, fun f hf => ?ldx, fun f hf => ?ldy⟩
  case lda =>
    have hrow := ldaForms_isRow v a w f hf
    exact ⟨hrow.encodes,
      hrow.exec_of_loads_setZN (put := fun r c => { c with a := r }) (fun _ _ => rfl) (fun _ _ _ => rfl) s⟩
  case ldx =>
    have hrow := ldxForms_isRow v a w f hf
    exact ⟨hrow.encodes,
      hrow.exec_of_loads_setZN (put := fun r c => { c with x := r }) (fun _ _ => rfl) (fun _ _ _ => rfl) s⟩
  case ldy =>
    have hrow := ldyForms_isRow v a w f hf
    exact ⟨hrow.encodes,
      hrow.exec_of_loads_setZN (put := fun r c => { c with y := r }) (fun _ _ => rfl) (fun _ _ _ => rfl) s⟩

/-- Settles O15: STA, STX and STY are one store of a register at the resolved address. -/
theorem storeResults : Obligations.StoreResults := by
  intro v a w s
  refine ⟨fun f hf => ?sta, fun f hf => ?stx, fun f hf => ?sty⟩
  case sta =>
    have hrow := staForms_isRow v a w f hf
    exact ⟨hrow.encodes, hrow.exec_of_stores (by decide) (val := Cpu.a) (fun _ _ => rfl) (fun _ _ => rfl) s⟩
  case stx =>
    have hrow := stxForms_isRow v a w f hf
    exact ⟨hrow.encodes, hrow.exec_of_stores (by decide) (val := Cpu.x) (fun _ _ => rfl) (fun _ _ => rfl) s⟩
  case sty =>
    have hrow := styForms_isRow v a w f hf
    exact ⟨hrow.encodes, hrow.exec_of_stores (by decide) (val := Cpu.y) (fun _ _ => rfl) (fun _ _ => rfl) s⟩

end Sys2Proof.Machine
end

section
/-! SUPPORT. Further shapes of a form's meaning: read, change and write back (40 R183), and a register operation of the implied
mode (40 R163); and the flags that arithmetic writes (42 R201 to R203, 43 R223). -/

namespace Sys2Proof.Machine

open Sys2Proof.Claims

/-- A work on the registers alone. -/
def State.mapCpu (s : State) (g : Cpu → Cpu) : State := { s with cpu := g s.cpu }

theorem memWrite_mapCpu_comm {g : Cpu → Cpu} {v : Byte} (hg : ∀ c : Cpu, (g c).startDma v = g (c.startDma v)) (s : State)
    (a : Addr) : memWrite (s.mapCpu g) a v = (memWrite s a v).mapCpu g := memWrite_mapCpu hg s a

/-- The charge does not look at what a bus write changes (40 R161). -/
theorem charge_memWrite (base : Nat) (c : Penalty) (extra : Nat) (s : State) (a : Addr) (v : Byte) :
    charge base c extra (memWrite s a v) = memWrite (charge base c extra s) a v := by
  have hpenalty : pagePenalty c (memWrite s a v) = pagePenalty c s := by
    simp only [pagePenalty, memWrite_pageCrossed]
  rw [charge, hpenalty]
  exact (memWrite_mapCpu_comm
    (g := fun d => { d with cyclesUntilNext := BitVec.ofNat 16 (base + pagePenalty c s + extra) }) (fun _ => rfl) s a).symm

/-- A register operation of the implied mode at a fixed cost (40 R161, R163). -/
theorem run_implied {perform : Operand → State → State} {g : Cpu → Cpu}
    (hperf : ∀ t, perform .imp t = t.mapCpu g) (hg : ∀ c t, g (c.latentFrom t) = (g c).latentFrom t)
    (base : Nat) (s : State) :
    run .imp base .none perform s = .next (implied s (g s.cpu) (BitVec.ofNat 16 base)) := by
  have hcpu : g (resolve .imp s).cpu = (g s.cpu).latentFrom (resolve .imp s).cpu := by
    rw [← hg]
    rfl
  rw [run, hperf, State.mapCpu, hcpu]
  rfl

/-- A value of the registers put in a register, with Z and N from it. -/
theorem run_implied_setZN {perform : Operand → State → State} {put : Byte → Cpu → Cpu} {val : Cpu → Byte}
    (hperf : ∀ t, perform .imp t = t.mapCpu fun c => { put (val c) c with p := withZN c.p (val c) })
    (hval : ∀ c t, val (c.latentFrom t) = val c) (hput : ∀ v c t, put v (c.latentFrom t) = (put v c).latentFrom t)
    (base : Nat) (s : State) :
    ∃ p, FlagsAre s.cpu.p p (zn (val s.cpu)) ∧
      run .imp base .none perform s =
        .next (implied s { put (val s.cpu) s.cpu with p := p } (BitVec.ofNat 16 base)) :=
  ⟨_, flagsAre_withZN _ _, run_implied hperf (fun c t => by rw [hval, hput]; rfl) base s⟩

end Sys2Proof.Machine

namespace Sys2Proof.Claims

open Sys2Proof.Machine

/-- A load of the resolved operand leaves the registers but for the latent operand state. -/
theorem Form.load_resolved_cpu (f : Form) (s : State) :
    (load f.operand (f.resolved s)).2.cpu = s.cpu.latentFrom (f.resolved s).cpu := by
  rw [load_cpu]
  exact resolve_cpu f.operand s

/-- The charge after a load and a work on the registers. -/
theorem Form.charge_loaded (f : Form) {g : Cpu → Cpu} (hg : ∀ c t, g (c.latentFrom t) = (g c).latentFrom t) (s : State) :
    charge f.base f.penalty 0 ((load f.operand (f.resolved s)).2.mapCpu g) = f.loaded s (g s.cpu) := by
  have hcpu : g (load f.operand (f.resolved s)).2.cpu = (g s.cpu).latentFrom (f.resolved s).cpu := by
    rw [f.load_resolved_cpu, hg]
  have hcrossed : (g (load f.operand (f.resolved s)).2.cpu).pageCrossed = (f.resolved s).cpu.pageCrossed := by
    rw [hcpu]
    rfl
  rw [f.loaded_eq, ← hcpu]
  exact f.charge_eq hcrossed

/-- An instruction that loads its operand, stores a value in its place and then works on the registers alone (40 R183). -/
theorem Form.IsRow.exec_of_modifies {f : Form} {m : Mnemonic} (h : f.IsRow m) {val : Byte → Cpu → Byte}
    {g : Byte → Cpu → Cpu}
    (hperf : ∀ o t, performOf m o t =
      (store o (val (load o t).1 (load o t).2.cpu) (load o t).2).mapCpu (g (load o t).1))
    (hval : ∀ b c t, val b (c.latentFrom t) = val b c) (hg : ∀ b c t, g b (c.latentFrom t) = (g b c).latentFrom t)
    (hdma : ∀ b c v, (g b c).startDma v = g b (c.startDma v))
    (hacc : f.operand = .acc → ∀ b c v, g b { c with a := v } = { g b c with a := v }) (s : State) :
    exec f.instr s = .next (f.modified s (g (f.src s) s.cpu) (val (f.src s) s.cpu)) := by
  have hperformed : performOf m f.operand (f.resolved s) =
      (store f.operand (val (f.src s) s.cpu) (load f.operand (f.resolved s)).2).mapCpu (g (f.src s)) := by
    rw [hperf, f.load_resolved_cpu, hval]
    rfl
  have hea : (load f.operand (f.resolved s)).2.cpu.operandAddr = f.ea s := by rw [load_cpu, Form.ea]
  rw [h.exec_eq, hperformed, Form.modified]
  by_cases ho : f.operand = .acc
  · rw [if_pos ho, show store f.operand = store .acc by rw [ho], ← hacc ho]
    exact congrArg _ (f.charge_loaded (g := fun c => g (f.src s) { c with a := val (f.src s) s.cpu })
      (fun c t => hg _ { c with a := _ } t) s)
  · rw [if_neg ho, store_memory ho, ← memWrite_mapCpu_comm (fun c => hdma _ c _), charge_memWrite, hea,
      f.charge_loaded (hg _)]

/-- An instruction that stores a result computed from its operand in the operand's place and sets Z and N from it. -/
theorem Form.IsRow.exec_of_modifies_setZN {f : Form} {m : Mnemonic} (h : f.IsRow m) {val : Byte → Byte}
    (hperf : ∀ o t, performOf m o t = (store o (val (load o t).1) (load o t).2).setZN (val (load o t).1)) (s : State) :
    ∃ p, FlagsAre s.cpu.p p (zn (val (f.src s))) ∧
      exec f.instr s = .next (f.modified s { s.cpu with p := p } (val (f.src s))) :=
  ⟨_, flagsAre_withZN _ _, h.exec_of_modifies (val := fun b _ => val b)
    (g := fun b c => { c with p := withZN c.p (val b) }) hperf (fun _ _ _ => rfl) (fun _ _ _ => rfl) (fun _ _ _ => rfl)
    (fun _ _ _ _ => rfl) s⟩

theorem flagsAre_adcP (p a m : Byte) :
    FlagsAre p (adcP p a m) (added a m (flagOf p .c) (adcResult a m (flagOf p .c))) := by
  intro f
  rw [adcP, flagOf_withZN, flagOf_withFlag, flagOf_withFlag]
  cases f <;> rfl

theorem flagsAre_sbcP (p a m : Byte) :
    FlagsAre p (sbcP p a m) (subtracted a m (flagOf p .c) (sbcResult a m (flagOf p .c))) := by
  intro f
  rw [sbcP, flagOf_withZN, flagOf_withFlag, flagOf_withFlag]
  cases f <;> rfl

theorem flagsAre_cmpP (p r m : Byte) : FlagsAre p (cmpP p r m) (compared r m) := by
  intro f
  rw [cmpP, flagOf_withFlag, flagOf_withFlag, flagOf_withFlag]
  cases f <;> rfl

theorem flagsAre_bitP (p a m : Byte) :
    FlagsAre p (bitP p a m) [(.z, a &&& m == 0), (.v, m.getLsbD 6), (.n, m.getLsbD 7)] := by
  intro f
  rw [bitP, flagOf_withFlag, flagOf_withFlag, flagOf_withFlag]
  cases f <;> rfl

/-- An instruction that subtracts its operand from A, as SBC and *SBC do (42 R202, 46 R271). -/
theorem Form.IsRow.exec_of_subtracts {f : Form} {m : Mnemonic} (h : f.IsRow m) (hperf : performOf m = sbc) (s : State) :
    exec f.instr s = .next (f.loaded s { s.cpu with
      a := sbcResult s.cpu.a (f.src s) (flagOf s.cpu.p .c), p := sbcP s.cpu.p s.cpu.a (f.src s) }) :=
  h.exec_of_loads (g := fun b c => { c with a := sbcResult c.a b (flagOf c.p .c), p := sbcP c.p c.a b })
    (fun _ _ => by rw [hperf]; rfl) (fun _ _ _ => rfl) s

/-- An instruction that compares a register with its operand (42 R203). -/
theorem Form.IsRow.exec_of_compares {f : Form} {m : Mnemonic} (h : f.IsRow m) {reg : Cpu → Byte}
    (hperf : ∀ o t, performOf m o t =
      (load o t).2.setP (cmpP (load o t).2.cpu.p (reg (load o t).2.cpu) (load o t).1))
    (hreg : ∀ c t, reg (c.latentFrom t) = reg c) (s : State) :
    ∃ p, FlagsAre s.cpu.p p (compared (reg s.cpu) (f.src s)) ∧ exec f.instr s = .next (f.loaded s { s.cpu with p := p }) :=
  ⟨_, flagsAre_cmpP _ _ _, h.exec_of_loads (g := fun b c => { c with p := cmpP c.p (reg c) b }) hperf
    (fun b c t => by rw [hreg]; rfl) s⟩

end Sys2Proof.Claims
end

section
/-! The family of file 42: arithmetic, compare, increment and decrement, with BIT (43 R223). -/

namespace Sys2Proof.Machine

open Sys2Proof.Claims

-- The rows of the statements are those of the table: each list is compared with it, row by row (30 R146, 42 R201 to R207, 43
-- R223).

theorem adcForms_isRow (v a : Byte) (w : Addr) : ∀ f ∈ adcForms v a w, f.IsRow .adc :=
  List.map_inj_left.1 (by dsimp only [adcForms, List.map]; rfl)

theorem sbcForms_isRow (v a : Byte) (w : Addr) : ∀ f ∈ sbcForms v a w, f.IsRow .sbc :=
  List.map_inj_left.1 (by dsimp only [sbcForms, List.map]; rfl)

theorem sbcUForms_isRow (v a : Byte) (w : Addr) : ∀ f ∈ sbcUForms v a w, f.IsRow .sbcU :=
  List.map_inj_left.1 (by dsimp only [sbcUForms, List.map]; rfl)

theorem cmpForms_isRow (v a : Byte) (w : Addr) : ∀ f ∈ cmpForms v a w, f.IsRow .cmp :=
  List.map_inj_left.1 (by dsimp only [cmpForms, List.map]; rfl)

theorem cpxForms_isRow (v a : Byte) (w : Addr) : ∀ f ∈ cpxForms v a w, f.IsRow .cpx :=
  List.map_inj_left.1 (by dsimp only [cpxForms, List.map]; rfl)

theorem cpyForms_isRow (v a : Byte) (w : Addr) : ∀ f ∈ cpyForms v a w, f.IsRow .cpy :=
  List.map_inj_left.1 (by dsimp only [cpyForms, List.map]; rfl)

theorem bitForms_isRow (v a : Byte) (w : Addr) : ∀ f ∈ bitForms v a w, f.IsRow .bit :=
  List.map_inj_left.1 (by dsimp only [bitForms, List.map]; rfl)

theorem incForms_isRow (v a : Byte) (w : Addr) : ∀ f ∈ incForms v a w, f.IsRow .inc :=
  List.map_inj_left.1 (by dsimp only [incForms, List.map]; rfl)

theorem decForms_isRow (v a : Byte) (w : Addr) : ∀ f ∈ decForms v a w, f.IsRow .dec :=
  List.map_inj_left.1 (by dsimp only [decForms, List.map]; rfl)

/-- Settles O16: ADC loads a byte, puts the model's sum in A and writes the flags that `adcP` computes. -/
theorem addResult : Obligations.AddResult := by
  intro v a w s f hf m c r
  have hrow := adcForms_isRow v a w f hf
  exact ⟨hrow.encodes, _, flagsAre_adcP s.cpu.p s.cpu.a m,
    hrow.exec_of_loads (g := fun b c => { c with a := adcResult c.a b (flagOf c.p .c), p := adcP c.p c.a b })
      (fun _ _ => rfl) (fun _ _ _ => rfl) s⟩

/-- Settles O17: $EB is a row of its own mnemonic, which performs what SBC performs. -/
theorem subtractResult : Obligations.SubtractResult := by
  intro v a w s f hf m c r
  have hrow : ∃ n, f.IsRow n ∧ performOf n = sbc := by
    rcases List.mem_append.1 hf with hsbc | hsbcU
    · exact ⟨.sbc, sbcForms_isRow v a w f hsbc, rfl⟩
    · exact ⟨.sbcU, sbcUForms_isRow v a w f hsbcU, rfl⟩
  obtain ⟨n, hrow, hperf⟩ := hrow
  exact ⟨hrow.encodes, _, flagsAre_sbcP s.cpu.p s.cpu.a m, hrow.exec_of_subtracts hperf s⟩

/-- Settles O18: the comparisons differ in their register only; BIT loads a byte and writes three flags. -/
theorem compareAndBitTestResults : Obligations.CompareAndBitTestResults := by
  intro v a w s
  refine ⟨fun f hf => ?cmp, fun f hf => ?cpx, fun f hf => ?cpy, fun f hf => ?bit⟩
  case cmp =>
    have hrow := cmpForms_isRow v a w f hf
    exact ⟨hrow.encodes, hrow.exec_of_compares (reg := Cpu.a) (fun _ _ => rfl) (fun _ _ => rfl) s⟩
  case cpx =>
    have hrow := cpxForms_isRow v a w f hf
    exact ⟨hrow.encodes, hrow.exec_of_compares (reg := Cpu.x) (fun _ _ => rfl) (fun _ _ => rfl) s⟩
  case cpy =>
    have hrow := cpyForms_isRow v a w f hf
    exact ⟨hrow.encodes, hrow.exec_of_compares (reg := Cpu.y) (fun _ _ => rfl) (fun _ _ => rfl) s⟩
  case bit =>
    have hrow := bitForms_isRow v a w f hf
    exact ⟨hrow.encodes, _, flagsAre_bitP s.cpu.p s.cpu.a (f.src s),
      hrow.exec_of_loads (g := fun b c => { c with p := bitP c.p c.a b }) (fun _ _ => rfl) (fun _ _ _ => rfl) s⟩

/-- Settles O19: INC and DEC read, change and write back; the other four put a value of the registers in a register. -/
theorem incrementAndDecrementResults : Obligations.IncrementAndDecrementResults := by
  intro v a w s
  refine ⟨fun f hf => ?inc, fun f hf => ?dec, ⟨rfl, ?inx⟩, ⟨rfl, ?dex⟩, ⟨rfl, ?iny⟩, ⟨rfl, ?dey⟩⟩
  case inc =>
    have hrow := incForms_isRow v a w f hf
    exact ⟨hrow.encodes, hrow.exec_of_modifies_setZN (val := (· + 1)) (fun _ _ => rfl) s⟩
  case dec =>
    have hrow := decForms_isRow v a w f hf
    exact ⟨hrow.encodes, hrow.exec_of_modifies_setZN (val := (· - 1)) (fun _ _ => rfl) s⟩
  case inx =>
    exact run_implied_setZN (perform := inx) (put := fun r c => { c with x := r }) (val := fun c => c.x + 1)
      (fun _ => rfl) (fun _ _ => rfl) (fun _ _ _ => rfl) 2 s
  case dex =>
    exact run_implied_setZN (perform := dex) (put := fun r c => { c with x := r }) (val := fun c => c.x - 1)
      (fun _ => rfl) (fun _ _ => rfl) (fun _ _ _ => rfl) 2 s
  case iny =>
    exact run_implied_setZN (perform := iny) (put := fun r c => { c with y := r }) (val := fun c => c.y + 1)
      (fun _ => rfl) (fun _ _ => rfl) (fun _ _ _ => rfl) 2 s
  case dey =>
    exact run_implied_setZN (perform := dey) (put := fun r c => { c with y := r }) (val := fun c => c.y - 1)
      (fun _ => rfl) (fun _ _ => rfl) (fun _ _ _ => rfl) 2 s

end Sys2Proof.Machine
end

section
/-! SUPPORT. The shifts' results as numbers and what a shift performs (43 R219 to R222); the shapes of a form's meaning that file
43 adds: a combination of A with the operand, and a shift (43 R215). -/

namespace Sys2Proof.Machine

open Sys2Proof.Claims

theorem toNat_bitByte (b : Bool) : (bitByte b).toNat = num b := by cases b <;> rfl

theorem num_lt_two (b : Bool) : num b < 2 := by cases b <;> decide

/-- A shift to the left is a doubling (43 R219). -/
theorem aslResult_eq (m : Byte) : aslResult m = BitVec.ofNat 8 (2 * m.toNat) := by
  apply BitVec.eq_of_toNat_eq
  rw [aslResult, BitVec.toNat_shiftLeft, BitVec.toNat_ofNat, Nat.shiftLeft_eq, Nat.mul_comm, pow_one]

/-- A shift to the right is a halving (43 R220). -/
theorem lsrResult_eq (m : Byte) : lsrResult m = BitVec.ofNat 8 (m.toNat / 2) := by
  have hm := m.isLt
  apply BitVec.eq_of_toNat_eq
  rw [lsrResult, BitVec.toNat_ushiftRight, BitVec.toNat_ofNat, Nat.shiftRight_eq_div_pow, Nat.mod_eq_of_lt (by omega), pow_one]

/-- A rotate to the left doubles and puts the carry in the even place that leaves (43 R221). -/
theorem rolResult_eq (m : Byte) (c : Bool) : rolResult m c = BitVec.ofNat 8 (2 * m.toNat + num c) := by
  have hc := num_lt_two c
  have hor := Nat.two_pow_add_eq_or_of_lt (i := 1) hc (m.toNat % 128)
  apply BitVec.eq_of_toNat_eq
  rw [rolResult, BitVec.toNat_or, toNat_bitByte, ← aslResult, aslResult_eq, BitVec.toNat_ofNat, BitVec.toNat_ofNat,
    show 2 * m.toNat % 2 ^ 8 = 2 ^ 1 * (m.toNat % 128) by omega, ← hor]
  omega

/-- A rotate to the right halves and puts the carry in the top place (43 R222). -/
theorem rorResult_eq (m : Byte) (c : Bool) : rorResult m c = BitVec.ofNat 8 (m.toNat / 2 + 128 * num c) := by
  have hm := m.isLt
  have hc := num_lt_two c
  have hor := Nat.two_pow_add_eq_or_of_lt (i := 7) (b := m.toNat / 2) (by omega) (num c)
  have htop : (bitByte c <<< 7).toNat = 2 ^ 7 * num c := by cases c <;> rfl
  apply BitVec.eq_of_toNat_eq
  rw [rorResult, BitVec.toNat_or, htop, ← lsrResult, lsrResult_eq, BitVec.toNat_ofNat, BitVec.toNat_ofNat,
    Nat.mod_eq_of_lt (by omega), Nat.or_comm, ← hor]
  omega

-- Each shift stores its result and writes P from it; neither the load nor the store changes P (43 R219 to R222).

theorem asl_eq (o : Operand) (s : State) :
    asl o s = (store o (aslResult (load o s).1) (load o s).2).setP
      (shiftP s.cpu.p ((load o s).1.getLsbD 7) (aslResult (load o s).1)) := by
  simp only [asl, store_p, load_cpu]

theorem lsr_eq (o : Operand) (s : State) :
    lsr o s = (store o (lsrResult (load o s).1) (load o s).2).setP
      (shiftP s.cpu.p ((load o s).1.getLsbD 0) (lsrResult (load o s).1)) := by
  simp only [lsr, store_p, load_cpu]

theorem rol_eq (o : Operand) (s : State) :
    rol o s = (store o (rolResult (load o s).1 (flagOf s.cpu.p .c)) (load o s).2).setP
      (shiftP s.cpu.p ((load o s).1.getLsbD 7) (rolResult (load o s).1 (flagOf s.cpu.p .c))) := by
  simp only [rol, State.flag, store_p, load_cpu]

theorem ror_eq (o : Operand) (s : State) :
    ror o s = (store o (rorResult (load o s).1 (flagOf s.cpu.p .c)) (load o s).2).setP
      (shiftP s.cpu.p ((load o s).1.getLsbD 0) (rorResult (load o s).1 (flagOf s.cpu.p .c))) := by
  simp only [ror, State.flag, store_p, load_cpu]

end Sys2Proof.Machine

namespace Sys2Proof.Claims

open Sys2Proof.Machine

theorem flagsAre_shiftP (p : Byte) (c : Bool) (r : Byte) : FlagsAre p (shiftP p c r) ((.c, c) :: zn r) := by
  intro f
  rw [shiftP, flagOf_withZN, flagOf_withFlag]
  cases f <;> rfl

/-- An instruction that combines A with its operand into A and sets Z and N from the result (43 R215). -/
theorem Form.IsRow.exec_of_combines {f : Form} {m : Mnemonic} (h : f.IsRow m) {op : Byte → Byte → Byte}
    (hperf : ∀ o t, performOf m o t = intoA (op (load o t).2.cpu.a (load o t).1) (load o t).2) (s : State) :
    ∃ p, FlagsAre s.cpu.p p (zn (op s.cpu.a (f.src s))) ∧
      exec f.instr s = .next (f.loaded s { s.cpu with a := op s.cpu.a (f.src s), p := p }) :=
  ⟨_, flagsAre_withZN _ _, h.exec_of_loads (g := fun b c => { c with a := op c.a b, p := withZN c.p (op c.a b) }) hperf
    (fun _ _ _ => rfl) s⟩

/-- An instruction that stores `r`, a result of its operand and the old C, in the operand's place, shifts `out` into C and sets
Z and N from `r` (43 R215). -/
theorem Form.IsRow.exec_of_shifts {f : Form} {m : Mnemonic} (h : f.IsRow m) {val : Byte → Bool → Byte} {out : Byte → Bool}
    (hperf : ∀ o t, performOf m o t =
      (store o (val (load o t).1 (flagOf t.cpu.p .c)) (load o t).2).setP
        (shiftP t.cpu.p (out (load o t).1) (val (load o t).1 (flagOf t.cpu.p .c))))
    {s : State} {r : Byte} (hr : val (f.src s) (flagOf s.cpu.p .c) = r) :
    ∃ p, FlagsAre s.cpu.p p ((.c, out (f.src s)) :: zn r) ∧
      exec f.instr s = .next (f.modified s { s.cpu with p := p } r) := by
  subst hr
  refine ⟨_, flagsAre_shiftP _ _ _, h.exec_of_modifies (val := fun b c => val b (flagOf c.p .c))
    (g := fun b c => { c with p := shiftP c.p (out b) (val b (flagOf c.p .c)) }) (fun o t => ?_)
    (fun _ _ _ => rfl) (fun _ _ _ => rfl) (fun _ _ _ => rfl) (fun _ _ _ _ => rfl) s⟩
  rw [hperf]
  simp only [State.mapCpu, store_p, load_cpu]
  rfl

end Sys2Proof.Claims
end

section
/-! The family of file 43: logic and shifts. -/

namespace Sys2Proof.Machine

open Sys2Proof.Claims

-- The rows of the statements are those of the table: each list is compared with it, row by row (30 R146, 43 R216 to R222).

theorem andForms_isRow (v a : Byte) (w : Addr) : ∀ f ∈ andForms v a w, f.IsRow .and :=
  List.map_inj_left.1 (by dsimp only [andForms, List.map]; rfl)

theorem eorForms_isRow (v a : Byte) (w : Addr) : ∀ f ∈ eorForms v a w, f.IsRow .eor :=
  List.map_inj_left.1 (by dsimp only [eorForms, List.map]; rfl)

theorem oraForms_isRow (v a : Byte) (w : Addr) : ∀ f ∈ oraForms v a w, f.IsRow .ora :=
  List.map_inj_left.1 (by dsimp only [oraForms, List.map]; rfl)

theorem aslForms_isRow (v a : Byte) (w : Addr) : ∀ f ∈ aslForms v a w, f.IsRow .asl :=
  List.map_inj_left.1 (by dsimp only [aslForms, List.map]; rfl)

theorem lsrForms_isRow (v a : Byte) (w : Addr) : ∀ f ∈ lsrForms v a w, f.IsRow .lsr :=
  List.map_inj_left.1 (by dsimp only [lsrForms, List.map]; rfl)

theorem rolForms_isRow (v a : Byte) (w : Addr) : ∀ f ∈ rolForms v a w, f.IsRow .rol :=
  List.map_inj_left.1 (by dsimp only [rolForms, List.map]; rfl)

theorem rorForms_isRow (v a : Byte) (w : Addr) : ∀ f ∈ rorForms v a w, f.IsRow .ror :=
  List.map_inj_left.1 (by dsimp only [rorForms, List.map]; rfl)

/-- Settles O20: the three differ in the operation that combines A with the operand. -/
theorem logicResults : Obligations.LogicResults := by
  intro v a w s
  refine ⟨fun f hf => ?and, fun f hf => ?eor, fun f hf => ?ora⟩
  case and =>
    have hrow := andForms_isRow v a w f hf
    exact ⟨hrow.encodes, hrow.exec_of_combines (op := (· &&& ·)) (fun _ _ => rfl) s⟩
  case eor =>
    have hrow := eorForms_isRow v a w f hf
    exact ⟨hrow.encodes, hrow.exec_of_combines (op := (· ^^^ ·)) (fun _ _ => rfl) s⟩
  case ora =>
    have hrow := oraForms_isRow v a w f hf
    exact ⟨hrow.encodes, hrow.exec_of_combines (op := (· ||| ·)) (fun _ _ => rfl) s⟩

/-- Settles O21: the four differ in the result and in the bit shifted out; the model's results are the statement's numbers. -/
theorem shiftResults : Obligations.ShiftResults := by
  intro v a w s
  refine ⟨fun f hf => ?asl, fun f hf => ?lsr, fun f hf => ?rol, fun f hf => ?ror⟩
  case asl =>
    have hrow := aslForms_isRow v a w f hf
    exact ⟨hrow.encodes,
      hrow.exec_of_shifts (val := fun b _ => aslResult b) (out := (·.getLsbD 7)) asl_eq (aslResult_eq _)⟩
  case lsr =>
    have hrow := lsrForms_isRow v a w f hf
    exact ⟨hrow.encodes,
      hrow.exec_of_shifts (val := fun b _ => lsrResult b) (out := (·.getLsbD 0)) lsr_eq (lsrResult_eq _)⟩
  case rol =>
    have hrow := rolForms_isRow v a w f hf
    exact ⟨hrow.encodes, hrow.exec_of_shifts (val := rolResult) (out := (·.getLsbD 7)) rol_eq (rolResult_eq _ _)⟩
  case ror =>
    have hrow := rorForms_isRow v a w f hf
    exact ⟨hrow.encodes, hrow.exec_of_shifts (val := rorResult) (out := (·.getLsbD 0)) ror_eq (rorResult_eq _ _)⟩

end Sys2Proof.Machine
end

section
/-! SUPPORT. The control instructions, each in one equation: jumps, calls, returns, BRK and branches (44 R226 to R239). -/

namespace Sys2Proof.Claims

open Sys2Proof.Machine

theorem flagsAre_withFlag (p : Byte) (f : Flag) (on : Bool) : FlagsAre p (withFlag p f on) [(f, on)] := by
  intro g
  rw [flagOf_withFlag, List.lookup_cons]
  by_cases h : g = f
  · rw [if_pos h, beq_iff_eq.2 h]
    rfl
  · rw [if_neg h, beq_false_of_ne h]
    rfl

/-- A jump leaves the machine as resolving its operand does, with PC at the effective address (44 R226). -/
theorem Form.IsRow.exec_of_jumps {f : Form} (h : f.IsRow .jmp) (s : State) :
    exec f.instr s = .next (f.quiet s { s.cpu with pc := f.ea s }) := by
  have hjump : f.quiet s { s.cpu with pc := f.ea s } = _ := congrArg (·.setPc (f.ea s)) (f.quiet_eq s)
  rw [h.exec_eq, hjump]
  exact congrArg _ (f.charge_eq (t := (f.resolved s).setPc (f.ea s)) rfl)

end Sys2Proof.Claims

namespace Sys2Proof.Machine

open Sys2Proof.Claims

/-- Work RAM after the two pushes of a call (40 R166). -/
def callStack (s : State) (ret : Addr) : Memory :=
  (s.wram.write (stackByte s.cpu.s) (hi ret)).write (stackByte (s.cpu.s - 1)) (lo ret)

theorem exec_jsrAbs (w : Addr) (s : State) :
    exec (.jsrAbs w) s = .next
      { s with
        cpu := { s.cpu with
          pc := w, s := s.cpu.s - 2, operandAddr := w, isMemoryOperand := true, pageCrossed := false
          cyclesUntilNext := 6 }
        wram := callStack s (s.cpu.pc - 1) } := by
  show run (.abs w) 6 .none jsr s = _
  rw [run, jsr, push16_eq]
  rfl

theorem exec_rts (s : State) :
    exec .rts s = .next (implied s { s.cpu with
      pc := w16 (s.wram.read (stackByte (s.cpu.s + 2))) (s.wram.read (stackByte (s.cpu.s + 1))) + 1
      s := s.cpu.s + 2 } 6) := by
  show run .imp 6 .none rts s = _
  rw [run, rts, pull16_eq]
  rfl

theorem exec_rti (s : State) :
    exec .rti s = .next (implied s { s.cpu with
      p := pulled s.cpu.p (s.wram.read (stackByte (s.cpu.s + 1)))
      pc := w16 (s.wram.read (stackByte (s.cpu.s + 3))) (s.wram.read (stackByte (s.cpu.s + 2)))
      s := s.cpu.s + 3 } 6) := by
  show run .imp 6 .none rti s = _
  rw [run, rti, returnFromInterrupt_eq]
  rfl

theorem exec_brk (s : State) :
    exec .brk s = .next
      { implied s { s.cpu with
          pc := w16 (s.cart.cpuRead 0xFFFF) (s.cart.cpuRead 0xFFFE), s := s.cpu.s - 3, p := withFlag s.cpu.p .i true } 7 with
        wram := entryStack s (s.cpu.pc + 1) (pushedP s.cpu.p) } := by
  show run .imp 7 .none brk s = _
  rw [run, brk, enterInterrupt_eq _ _ _ brkVector (by decide) (by decide)]
  rfl

/-- Resolving a branch's operand computes its target and the page test, and reads nothing (40 R179). -/
theorem resolve_rel (o : Byte) (s : State) :
    resolve (.rel o) s = s.setLatent (BitVec.ofInt 16 (s.cpu.pc.toNat + o.toInt)) true
      (resolve (.rel o) s).cpu.pageCrossed := by
  rw [← branchTarget_eq]
  rfl

/-- A branch on whether the flag `f` is `want` (44 R231). -/
theorem runBranch_flag {taken : State → Bool} {f : Flag} {want : Bool} (h : ∀ t, taken t = true ↔ t.flag f = want)
    (o : Byte) (s : State) :
    let target := BitVec.ofInt 16 (s.cpu.pc.toNat + o.toInt)
    let crossed := (resolve (.rel o) s).cpu.pageCrossed
    runBranch o taken s = .next
      { s with cpu := { s.cpu with
          pc := if flagOf s.cpu.p f = want then target else s.cpu.pc
          operandAddr := target, isMemoryOperand := true, pageCrossed := crossed
          cyclesUntilNext := if flagOf s.cpu.p f = want then (if crossed then 4 else 3) else 2 } } := by
  intro target crossed
  have hresolve : resolve (.rel o) s = s.setLatent target true crossed := resolve_rel o s
  have htaken : taken (s.setLatent target true crossed) = true ↔ flagOf s.cpu.p f = want := h _
  rw [runBranch_eq, hresolve]
  by_cases hflag : flagOf s.cpu.p f = want
  · rw [if_pos (htaken.2 hflag), if_pos hflag, if_pos hflag]
    cases crossed <;> rfl
  · rw [if_neg (mt htaken.1 hflag), if_neg hflag, if_neg hflag]
    rfl

end Sys2Proof.Machine
end

section
/-! SUPPORT. What an entry leaves on the stack, and what returning finds there (40 R166, 60 R350, R358). -/

namespace Sys2Proof.Claims

open Sys2Proof.Machine

@[simp] theorem stackByte_inj {a b : Byte} : stackByte a = stackByte b ↔ a = b := by
  rw [stackByte, stackByte, Nat.add_left_cancel_iff, BitVec.toNat_inj]

/-- An interrupt entry pushes its return address as a call does, and then a copy of P. -/
theorem entryStack_eq (s : State) (ret : Addr) (p : Byte) :
    entryStack s ret p = (callStack s ret).write (stackByte (s.cpu.s - 2)) p := rfl

/-- The two bytes that a call pushes, in the places where S stands after one and after two pulls. -/
theorem read_callStack (s : State) (ret : Addr) :
    (callStack s ret).read (stackByte (s.cpu.s - 1)) = lo ret ∧ (callStack s ret).read (stackByte s.cpu.s) = hi ret := by
  have hne : s.cpu.s ≠ s.cpu.s - 1 := by bv_omega
  simp only [callStack, Memory.read_write, stackByte_inj, if_neg hne, if_true, and_self]

/-- The three bytes that an interrupt entry pushes. -/
theorem read_entryStack (s : State) (ret : Addr) (p : Byte) :
    (entryStack s ret p).read (stackByte (s.cpu.s - 2)) = p
      ∧ (entryStack s ret p).read (stackByte (s.cpu.s - 1)) = lo ret
      ∧ (entryStack s ret p).read (stackByte s.cpu.s) = hi ret := by
  have hne1 : s.cpu.s - 1 ≠ s.cpu.s - 2 := by bv_omega
  have hne : s.cpu.s ≠ s.cpu.s - 2 := by bv_omega
  simp only [entryStack_eq, Memory.read_write, stackByte_inj, if_neg hne1, if_neg hne, if_true, true_and]
  exact read_callStack s ret

/-- What the handler's return pulls is what a return right after the entry would pull. -/
theorem SameStack.read_eq {n k : Nat} {u v : State} (h : SameStack n u v) (h1 : 1 ≤ k) (hn : k ≤ n) :
    v.wram.read (stackByte (v.cpu.s + BitVec.ofNat 8 k)) = u.wram.read (stackByte (u.cpu.s + BitVec.ofNat 8 k)) := by
  obtain ⟨hs, hread⟩ := h
  rw [hs]
  exact hread k h1 hn

/-- Pulling a copy of P that is P but for bits 4 and 5, where those are still P's, gives back P (10 R25). -/
theorem pulledP_eq_of_breakBits {s v : State} {p : Byte}
    (hp : ∀ f, ¬ (f = .b ∨ f = .u) → flagOf p f = flagOf s.cpu.p f) (hbits : SameBreakBits s v) :
    pulledP v.cpu.p p = s.cpu.p := by
  obtain ⟨hb, hu⟩ := hbits
  apply p_ext
  intro f
  rw [flagOf_pulledP]
  split
  case isTrue hbreak => rcases hbreak with rfl | rfl <;> assumption
  case isFalse hother => exact hp f hother

/-- RTS undoes a call that pushed the address `ret`, and steps past it (44 R227, R230). -/
theorem rts_undoes_call {s u v : State} {ret : Addr} (hs : u.cpu.s = s.cpu.s - 2) (hwram : u.wram = callStack s ret)
    (hstack : SameStack 2 u v) :
    ∃ t, exec .rts v = .next t ∧ t.cpu.pc = ret + 1 ∧ t.cpu.s = s.cpu.s := by
  have hread1 := hstack.read_eq (k := 1) (by decide) (by decide)
  have hread2 := hstack.read_eq (k := 2) (by decide) (by decide)
  have h1 : s.cpu.s - 2 + BitVec.ofNat 8 1 = s.cpu.s - 1 := by bv_omega
  have h2 : s.cpu.s - 2 + BitVec.ofNat 8 2 = s.cpu.s := BitVec.sub_add_cancel _ _
  obtain ⟨hlo, hhi⟩ := read_callStack s ret
  obtain ⟨hsame, -⟩ := hstack
  rw [hwram, hs, h1, hlo] at hread1
  rw [hwram, hs, h2, hhi] at hread2
  refine ⟨_, exec_rts v, ?pc, ?sp⟩
  case pc => exact congrArg (· + 1) ((congrArg₂ w16 hread2 hread1).trans (w16_hi_lo ret))
  case sp => exact (congrArg (· + 2) (hsame.trans hs)).trans h2

/-- RTI undoes an entry that pushed the address `ret` and a copy of P that is P but for bits 4 and 5 (60 R358). -/
theorem rti_undoes_entry {s u v : State} {ret : Addr} {p : Byte} (hs : u.cpu.s = s.cpu.s - 3)
    (hwram : u.wram = entryStack s ret p) (hp : ∀ f, ¬ (f = .b ∨ f = .u) → flagOf p f = flagOf s.cpu.p f)
    (hstack : SameStack 3 u v) (hbits : SameBreakBits s v) :
    ∃ t, exec .rti v = .next t ∧ t.cpu.pc = ret ∧ t.cpu.p = s.cpu.p ∧ t.cpu.s = s.cpu.s := by
  have hread1 := hstack.read_eq (k := 1) (by decide) (by decide)
  have hread2 := hstack.read_eq (k := 2) (by decide) (by decide)
  have hread3 := hstack.read_eq (k := 3) (by decide) (by decide)
  have h1 : s.cpu.s - 3 + BitVec.ofNat 8 1 = s.cpu.s - 2 := by bv_omega
  have h2 : s.cpu.s - 3 + BitVec.ofNat 8 2 = s.cpu.s - 1 := by bv_omega
  have h3 : s.cpu.s - 3 + BitVec.ofNat 8 3 = s.cpu.s := BitVec.sub_add_cancel _ _
  obtain ⟨hpushed, hlo, hhi⟩ := read_entryStack s ret p
  obtain ⟨hsame, -⟩ := hstack
  rw [hwram, hs, h1, hpushed] at hread1
  rw [hwram, hs, h2, hlo] at hread2
  rw [hwram, hs, h3, hhi] at hread3
  refine ⟨_, exec_rti v, ?pc, ?flags, ?sp⟩
  case pc => exact (congrArg₂ w16 hread3 hread2).trans (w16_hi_lo ret)
  case flags => exact (congrArg (pulledP v.cpu.p) hread1).trans (pulledP_eq_of_breakBits hp hbits)
  case sp => exact (congrArg (· + 3) (hsame.trans hs)).trans h3

end Sys2Proof.Claims
end

section
/-! The family of file 44: control. -/

namespace Sys2Proof.Machine

open Sys2Proof.Claims

/-- Settles O24: each of the eight tests one flag for one value. -/
theorem branchResults : Obligations.BranchResults := by
  intro s o target crossed
  have isClear (f : Flag) (t : State) : (!t.flag f) = true ↔ t.flag f = false := by rw [Bool.not_eq_true']
  have isSet (f : Flag) (t : State) : t.flag f = true ↔ t.flag f = true := Iff.rfl
  simp only [List.forall_mem_cons]
  exact ⟨⟨rfl, runBranch_flag (isClear .n) o s⟩, ⟨rfl, runBranch_flag (isSet .n) o s⟩,
    ⟨rfl, runBranch_flag (isClear .v) o s⟩, ⟨rfl, runBranch_flag (isSet .v) o s⟩,
    ⟨rfl, runBranch_flag (isClear .c) o s⟩, ⟨rfl, runBranch_flag (isSet .c) o s⟩,
    ⟨rfl, runBranch_flag (isClear .z) o s⟩, ⟨rfl, runBranch_flag (isSet .z) o s⟩, List.forall_mem_nil _⟩

/-- Settles O22: the two jumps are rows of the table; the calls and returns are what the stack's pushes and pulls make of them. -/
theorem jumpAndReturnResults : Obligations.JumpAndReturnResults := by
  intro s w sp
  have jmpForms_isRow : ∀ f ∈ [(⟨.jmpAbs w, 0x4C, .abs w, 3, 3, false⟩ : Form), ⟨.jmpInd w, 0x6C, .ind w, 3, 5, false⟩],
      f.IsRow .jmp := List.map_inj_left.1 (by dsimp only [List.map]; rfl)
  refine ⟨fun f hf => ?jmp, rfl, ?pointer, rfl, rfl, rfl, exec_jsrAbs w s, exec_rts s, exec_rti s⟩
  case jmp =>
    have hrow := jmpForms_isRow f hf
    exact ⟨hrow.encodes, hrow.exec_of_jumps s⟩
  case pointer =>
    rw [← indirectHighAddr_eq]
    rfl

/-- Settles O23: BRK is an interrupt entry, and of P it writes the flag I only. -/
theorem breakResult : Obligations.BreakResult := by
  intro s sp
  exact ⟨rfl, _, flagsAre_withFlag s.cpu.p .i true, exec_brk s⟩

/-- Settles O40: both entries push a return address and P but for bits 4 and 5; JSR pushes the address that RTS steps past. -/
theorem returnsUndoEntries : Obligations.ReturnsUndoEntries := by
  refine ⟨fun s v hstack hbits => ?nmi, fun s u v hbrk hstack hbits => ?brk, fun s w u v hjsr hstack => ?jsr⟩
  case nmi =>
    refine rti_undoes_entry (u := nmiEntry s) (p := pushedPNmi s.cpu.p) (by rw [nmiEntry_eq]) (by rw [nmiEntry_eq])
      (fun f hf => ?_) hstack hbits
    obtain ⟨hb, hu⟩ := not_or.1 hf
    rw [flagOf_pushedPNmi, if_neg hb, if_neg hu]
  case brk =>
    obtain rfl := Host.Outcome.next.inj ((exec_brk s).symm.trans hbrk)
    exact rti_undoes_entry rfl rfl (fun f hf => by rw [flagOf_pushedP, if_neg hf]) hstack hbits
  case jsr =>
    obtain rfl := Host.Outcome.next.inj ((exec_jsrAbs w s).symm.trans hjsr)
    obtain ⟨t, hrts, hpc, hs⟩ := rts_undoes_call rfl rfl hstack
    exact ⟨t, hrts, hpc.trans (BitVec.sub_add_cancel _ _), hs⟩

end Sys2Proof.Machine
end

section
/-! SUPPORT. Further shapes of an instruction of the implied mode: a push, a pull, and a flag given its value (40 R166, 45 R241
to R251). -/

namespace Sys2Proof.Machine

open Sys2Proof.Claims

/-- A byte of the registers pushed, at a fixed cost. -/
theorem run_implied_push {perform : Operand → State → State} {val : Cpu → Byte}
    (hperf : ∀ t, perform .imp t = push t (val t.cpu)) (hval : ∀ c t, val (c.latentFrom t) = val c)
    (base : Nat) (s : State) :
    run .imp base .none perform s =
      .next { implied s { s.cpu with s := s.cpu.s - 1 } (BitVec.ofNat 16 base) with
        wram := s.wram.write (stackByte s.cpu.s) (val s.cpu) } := by
  have hlatent : val (resolve .imp s).cpu = val s.cpu := by rw [resolve_cpu, hval]
  rw [run, hperf, push_eq, hlatent]
  rfl

/-- A byte pulled, and a work on the registers with it, at a fixed cost. -/
theorem run_implied_pull {perform : Operand → State → State} {g : Byte → Cpu → Cpu}
    (hperf : ∀ t, perform .imp t = (pull t).2.mapCpu (g (pull t).1))
    (hg : ∀ v c t, g v (c.latentFrom t) = (g v c).latentFrom t) (base : Nat) (s : State) :
    run .imp base .none perform s =
      .next (implied s (g (s.wram.read (stackByte (s.cpu.s + 1))) { s.cpu with s := s.cpu.s + 1 })
        (BitVec.ofNat 16 base)) := by
  have hcpu (v : Byte) : g v { (resolve .imp s).cpu with s := s.cpu.s + 1 } =
      (g v { s.cpu with s := s.cpu.s + 1 }).latentFrom (resolve .imp s).cpu := by
    rw [← hg]
    rfl
  have hpull : pull (resolve .imp s) = (s.wram.read (stackByte (s.cpu.s + 1)),
      { s with cpu := { (resolve .imp s).cpu with s := s.cpu.s + 1 } }) := pull_eq _
  rw [run, hperf, hpull, State.mapCpu, hcpu]
  rfl

/-- A flag given its value, at 2 cycles. -/
theorem run_implied_setFlag {perform : Operand → State → State} {f : Flag} {on : Bool}
    (hperf : ∀ t, perform .imp t = t.setFlag f on) (s : State) :
    ∃ p, FlagsAre s.cpu.p p [(f, on)] ∧ run .imp 2 .none perform s = .next (implied s { s.cpu with p := p } 2) :=
  ⟨_, flagsAre_withFlag _ _ _,
    run_implied (g := fun c => { c with p := withFlag c.p f on }) hperf (fun _ _ => rfl) 2 s⟩

end Sys2Proof.Machine
end

section
/-! The family of file 45: stack, flags, transfers. -/

namespace Sys2Proof.Machine

open Sys2Proof.Claims

/-- Settles O25: PHP and PHA push a byte of the registers; PLP pulls P but for bits 4 and 5. -/
theorem stackPushPullResults : Obligations.StackPushPullResults := by
  intro s sp
  refine ⟨rfl, rfl, rfl, ?php, ?pha, ?plp⟩
  case php =>
    exact run_implied_push (perform := php) (val := fun c => pushedP c.p) (fun _ => rfl) (fun _ _ => rfl) 3 s
  case pha =>
    exact run_implied_push (perform := pha) (val := Cpu.a) (fun _ => rfl) (fun _ _ => rfl) 3 s
  case plp =>
    exact run_implied_pull (perform := plp) (g := fun v c => { c with p := pulledP c.p v }) (fun _ => rfl)
      (fun _ _ _ => rfl) 4 s

/-- Settles O26: PLA pulls a byte, and the transfers take a value of the registers, each putting it in a register. -/
theorem pullAndTransferResults : Obligations.PullAndTransferResults := by
  intro s c m
  refine ⟨rfl, rfl, rfl, rfl, rfl, rfl, ?pla, ?tax, ?tay, ?txa, ?tya, ?tsx⟩
  case pla =>
    exact ⟨_, flagsAre_withZN c.p m,
      run_implied_pull (perform := pla) (g := fun v d => { d with a := v, p := withZN d.p v }) (fun _ => rfl)
        (fun _ _ _ => rfl) 4 s⟩
  case tax =>
    exact run_implied_setZN (perform := tax) (put := fun r d => { d with x := r }) (val := Cpu.a)
      (fun _ => rfl) (fun _ _ => rfl) (fun _ _ _ => rfl) 2 s
  case tay =>
    exact run_implied_setZN (perform := tay) (put := fun r d => { d with y := r }) (val := Cpu.a)
      (fun _ => rfl) (fun _ _ => rfl) (fun _ _ _ => rfl) 2 s
  case txa =>
    exact run_implied_setZN (perform := txa) (put := fun r d => { d with a := r }) (val := Cpu.x)
      (fun _ => rfl) (fun _ _ => rfl) (fun _ _ _ => rfl) 2 s
  case tya =>
    exact run_implied_setZN (perform := tya) (put := fun r d => { d with a := r }) (val := Cpu.y)
      (fun _ => rfl) (fun _ _ => rfl) (fun _ _ _ => rfl) 2 s
  case tsx =>
    exact run_implied_setZN (perform := tsx) (put := fun r d => { d with x := r }) (val := Cpu.s)
      (fun _ => rfl) (fun _ _ => rfl) (fun _ _ _ => rfl) 2 s

/-- Settles O27: seven instructions give a flag its value; TXS is a work on S, and NOP is none. -/
theorem flagAndPlainResults : Obligations.FlagAndPlainResults := by
  intro s
  refine ⟨⟨rfl, ?txs⟩, ⟨rfl, ?nop⟩, ?flags⟩
  case txs =>
    exact run_implied (perform := txs) (g := fun c => { c with s := c.x }) (fun _ => rfl) (fun _ _ => rfl) 2 s
  case nop =>
    exact run_implied (perform := nop) (g := id) (fun _ => rfl) (fun _ _ => rfl) 2 s
  case flags =>
    simp only [List.forall_mem_cons]
    exact ⟨⟨rfl, run_implied_setFlag (perform := clc) (fun _ => rfl) s⟩,
      ⟨rfl, run_implied_setFlag (perform := sec) (fun _ => rfl) s⟩,
      ⟨rfl, run_implied_setFlag (perform := cli) (fun _ => rfl) s⟩,
      ⟨rfl, run_implied_setFlag (perform := sei) (fun _ => rfl) s⟩,
      ⟨rfl, run_implied_setFlag (perform := cld) (fun _ => rfl) s⟩,
      ⟨rfl, run_implied_setFlag (perform := sed) (fun _ => rfl) s⟩,
      ⟨rfl, run_implied_setFlag (perform := clv) (fun _ => rfl) s⟩, List.forall_mem_nil _⟩

end Sys2Proof.Machine
end

section
/-! SUPPORT. The shapes of a form's meaning that file 46 adds: a composite, whose second operation works on the registers with
the value stored (46 R260); an operand carried by the instruction; and an instruction without an access (46 R272, R273). -/

namespace Sys2Proof.Claims

open Sys2Proof.Machine

/-- The mnemonics of the composites (46 R260). -/
def composites : List Mnemonic := [.slo, .rla, .sre, .rra, .dcp, .isc]

/-- No row of the table that is a composite is in the accumulator mode (30 R146). -/
theorem composites_row : ∀ op, (opInfo op).mnemonic ∈ composites → (opInfo op).mode ≠ .acc := by
  apply forall_byte
  intro n h
  interval_cases n <;> decide

/-- A flag's old value does not matter where the flag is one of those written. -/
theorem FlagsAre.of_withFlag {p p' : Byte} {f : Flag} {on : Bool} {new : List (Flag × Bool)}
    (h : FlagsAre (withFlag p f on) p' new) (hf : (new.lookup f).isSome) : FlagsAre p p' new := by
  intro g
  rw [h g, flagOf_withFlag]
  by_cases hg : g = f
  · obtain ⟨b, hb⟩ := Option.isSome_iff_exists.1 hf
    rw [hg, hb]
    rfl
  · rw [if_neg hg]

/-- P after an addition whose carry in is `c`, not the C of before (46 R264). -/
theorem flagsAre_adcP_withFlag (p a m : Byte) (c : Bool) :
    FlagsAre p (adcP (withFlag p .c c) a m) (added a m c (adcResult a m c)) := by
  have h := flagsAre_adcP (withFlag p .c c) a m
  rw [flagOf_withFlag, if_pos rfl] at h
  exact h.of_withFlag rfl

/-- C from the N of a result (46 R269). -/
theorem flagsAre_withFlag_withZN (p r : Byte) :
    FlagsAre p (withFlag (withZN p r) .c (flagOf (withZN p r) .n)) ((.c, r.getLsbD 7) :: zn r) := by
  intro f
  rw [flagOf_withFlag, flagOf_withZN, flagOf_withZN]
  cases f <;> rfl

/-- An addition after C is given its value takes that C as its carry (46 R264). -/
theorem adcByte_setFlag_carry (m : Byte) (c : Bool) (s : State) :
    adcByte m (s.setFlag .c c) = s.mapCpu fun d =>
      { d with a := adcResult d.a m c, p := adcP (withFlag d.p .c c) d.a m } := by
  have hcarry : (s.setFlag .c c).flag .c = c := by
    rw [State.flag, State.setFlag, State.setP, flagOf_withFlag, if_pos rfl]
  rw [adcByte, hcarry]
  rfl

/-- An immediate operand is the byte that the instruction carries (40 R180). -/
theorem Form.src_of_imm {f : Form} {v : Byte} (h : f.operand = .imm v) (s : State) : f.src s = v := by
  rw [Form.src, h]
  rfl

section
variable {f : Form} {m : Mnemonic}

theorem Form.IsRow.operand_ne_acc_of_composite (h : f.IsRow m) (hm : m ∈ composites) : f.operand ≠ .acc := by
  have hrow := composites_row f.opcode
  rw [show opInfo f.opcode = _ from congrArg (·.2.2) h] at hrow
  exact mt (congrArg Operand.mode) (hrow hm)

/-- A composite stores `r`, a result of its operand and the old C, in the operand's place and then works on the registers with
its operand and `r` (46 R260). -/
theorem Form.IsRow.exec_of_composes (h : f.IsRow m) (hm : m ∈ composites) {val : Byte → Bool → Byte}
    {g : Byte → Byte → Cpu → Cpu}
    (hperf : ∀ o t, performOf m o t =
      (store o (val (load o t).1 (flagOf (load o t).2.cpu.p .c)) (load o t).2).mapCpu
        (g (load o t).1 (val (load o t).1 (flagOf (load o t).2.cpu.p .c))))
    (hg : ∀ b r c t, g b r (c.latentFrom t) = (g b r c).latentFrom t)
    (hdma : ∀ b r c v, (g b r c).startDma v = g b r (c.startDma v))
    {s : State} {r : Byte} (hr : val (f.src s) (flagOf s.cpu.p .c) = r) :
    exec f.instr s = .next (f.modified s (g (f.src s) r s.cpu) r) := by
  subst hr
  refine h.exec_of_modifies (val := fun b c => val b (flagOf c.p .c)) (g := fun b c => g b (val b (flagOf c.p .c)) c)
    (fun o t => ?_) (fun _ _ _ => rfl) (fun _ _ _ => hg _ _ _ _) (fun _ _ _ => hdma _ _ _ _)
    (fun hacc => absurd hacc (h.operand_ne_acc_of_composite hm)) s
  rw [hperf]
  simp only [State.mapCpu, store_p]

/-- A composite that shifts its operand and combines A with the result (46 R261 to R263). -/
theorem Form.IsRow.exec_of_shifts_and_combines (h : f.IsRow m) (hm : m ∈ composites) {val : Byte → Bool → Byte}
    {out : Byte → Bool} {op : Byte → Byte → Byte}
    (hperf : ∀ o t, performOf m o t =
      (store o (val (load o t).1 (flagOf (load o t).2.cpu.p .c)) (load o t).2).mapCpu fun c =>
        { c with
          a := op c.a (val (load o t).1 (flagOf (load o t).2.cpu.p .c))
          p := shiftP c.p (out (load o t).1) (op c.a (val (load o t).1 (flagOf (load o t).2.cpu.p .c))) })
    {s : State} {r : Byte} (hr : val (f.src s) (flagOf s.cpu.p .c) = r) :
    ∃ p, FlagsAre s.cpu.p p ((.c, out (f.src s)) :: zn (op s.cpu.a r)) ∧
      exec f.instr s = .next (f.modified s { s.cpu with a := op s.cpu.a r, p := p } r) :=
  ⟨_, flagsAre_shiftP _ _ _,
    h.exec_of_composes hm (g := fun b r c => { c with a := op c.a r, p := shiftP c.p (out b) (op c.a r) }) hperf
      (fun _ _ _ _ => rfl) (fun _ _ _ _ => rfl) hr⟩

/-- An instruction that performs nothing leaves the machine as resolving its operand does (46 R272). -/
theorem Form.IsRow.exec_of_performs_nothing (h : f.IsRow m) (hperf : ∀ o t, performOf m o t = t) (s : State) :
    exec f.instr s = .next (f.quiet s s.cpu) := by
  rw [h.exec_eq, hperf, f.charge_eq rfl, f.quiet_eq]

end

end Sys2Proof.Claims
end

section
/-! The family of file 46: unofficial and undefined opcodes. -/

namespace Sys2Proof.Machine

open Sys2Proof.Claims

-- The rows of the statements are those of the table: each list is compared with it, row by row (30 R146, 46 R261 to R272).

theorem sloForms_isRow (v a : Byte) (w : Addr) : ∀ f ∈ sloForms v a w, f.IsRow .slo :=
  List.map_inj_left.1 (by dsimp only [sloForms, List.map]; rfl)

theorem rlaForms_isRow (v a : Byte) (w : Addr) : ∀ f ∈ rlaForms v a w, f.IsRow .rla :=
  List.map_inj_left.1 (by dsimp only [rlaForms, List.map]; rfl)

theorem sreForms_isRow (v a : Byte) (w : Addr) : ∀ f ∈ sreForms v a w, f.IsRow .sre :=
  List.map_inj_left.1 (by dsimp only [sreForms, List.map]; rfl)

theorem rraForms_isRow (v a : Byte) (w : Addr) : ∀ f ∈ rraForms v a w, f.IsRow .rra :=
  List.map_inj_left.1 (by dsimp only [rraForms, List.map]; rfl)

theorem dcpForms_isRow (v a : Byte) (w : Addr) : ∀ f ∈ dcpForms v a w, f.IsRow .dcp :=
  List.map_inj_left.1 (by dsimp only [dcpForms, List.map]; rfl)

theorem iscForms_isRow (v a : Byte) (w : Addr) : ∀ f ∈ iscForms v a w, f.IsRow .isc :=
  List.map_inj_left.1 (by dsimp only [iscForms, List.map]; rfl)

theorem saxForms_isRow (v a : Byte) (w : Addr) : ∀ f ∈ saxForms v a w, f.IsRow .sax :=
  List.map_inj_left.1 (by dsimp only [saxForms, List.map]; rfl)

theorem laxForms_isRow (v a : Byte) (w : Addr) : ∀ f ∈ laxForms v a w, f.IsRow .lax :=
  List.map_inj_left.1 (by dsimp only [laxForms, List.map]; rfl)

theorem ancForms_isRow (v a : Byte) (w : Addr) : ∀ f ∈ ancForms v a w, f.IsRow .anc :=
  List.map_inj_left.1 (by dsimp only [ancForms, List.map]; rfl)

theorem alrForms_isRow (v a : Byte) (w : Addr) : ∀ f ∈ alrForms v a w, f.IsRow .alr :=
  List.map_inj_left.1 (by dsimp only [alrForms, List.map]; rfl)

theorem nopUForms_isRow (v a : Byte) (w : Addr) : ∀ f ∈ nopUForms v a w, f.IsRow .nopU :=
  List.map_inj_left.1 (by dsimp only [nopUForms, List.map]; rfl)

theorem ancForms_operand (v a : Byte) (w : Addr) : ∀ f ∈ ancForms v a w, f.operand = .imm v :=
  List.map_inj_left.1 rfl

theorem alrForms_operand (v a : Byte) (w : Addr) : ∀ f ∈ alrForms v a w, f.operand = .imm v :=
  List.map_inj_left.1 rfl

/-- Settles O28: each composite is a read, a store of the first operation's result, and the second operation on the registers;
RRA's addition takes the carry that its rotate has left in P. -/
theorem compositeResults : Obligations.CompositeResults := by
  intro v a w s
  refine ⟨fun f hf => ?slo, fun f hf => ?rla, fun f hf => ?sre, fun f hf => ?rra, fun f hf => ?dcp, fun f hf => ?isc⟩
  case slo =>
    have hrow := sloForms_isRow v a w f hf
    exact ⟨hrow.encodes, hrow.exec_of_shifts_and_combines (by decide) (val := fun b _ => aslResult b)
      (out := (·.getLsbD 7)) (op := (· ||| ·)) (fun _ _ => rfl) (aslResult_eq _)⟩
  case rla =>
    have hrow := rlaForms_isRow v a w f hf
    exact ⟨hrow.encodes, hrow.exec_of_shifts_and_combines (by decide) (val := rolResult)
      (out := (·.getLsbD 7)) (op := (· &&& ·)) (fun _ _ => rfl) (rolResult_eq _ _)⟩
  case sre =>
    have hrow := sreForms_isRow v a w f hf
    exact ⟨hrow.encodes, hrow.exec_of_shifts_and_combines (by decide) (val := fun b _ => lsrResult b)
      (out := (·.getLsbD 0)) (op := (· ^^^ ·)) (fun _ _ => rfl) (lsrResult_eq _)⟩
  case rra =>
    have hrow := rraForms_isRow v a w f hf
    exact ⟨hrow.encodes, _, flagsAre_adcP_withFlag _ _ _ _, hrow.exec_of_composes (by decide) (val := rorResult)
      (g := fun b r c => { c with
        a := adcResult c.a r (b.getLsbD 0), p := adcP (withFlag c.p .c (b.getLsbD 0)) c.a r })
      (fun _ _ => adcByte_setFlag_carry _ _ _) (fun _ _ _ _ => rfl) (fun _ _ _ _ => rfl) (rorResult_eq _ _)⟩
  case dcp =>
    have hrow := dcpForms_isRow v a w f hf
    exact ⟨hrow.encodes, _, flagsAre_cmpP _ _ _, hrow.exec_of_composes (by decide) (val := fun b _ => b - 1)
      (g := fun _ r c => { c with p := cmpP c.p c.a r })
      (fun _ _ => rfl) (fun _ _ _ _ => rfl) (fun _ _ _ _ => rfl) rfl⟩
  case isc =>
    have hrow := iscForms_isRow v a w f hf
    exact ⟨hrow.encodes, _, flagsAre_sbcP _ _ _, hrow.exec_of_composes (by decide) (val := fun b _ => b + 1)
      (g := fun _ r c => { c with a := sbcResult c.a r (flagOf c.p .c), p := sbcP c.p c.a r })
      (fun _ _ => rfl) (fun _ _ _ _ => rfl) (fun _ _ _ _ => rfl) rfl⟩

/-- Settles O29: SAX is one store of a value of the registers; LAX, ANC and ALR are a load and a work on the registers. -/
theorem pairAndAndResults : Obligations.PairAndAndResults := by
  intro v a w s t r
  refine ⟨fun f hf => ?sax, fun f hf => ?lax, fun f hf => ?anc, fun f hf => ?alr⟩
  case sax =>
    have hrow := saxForms_isRow v a w f hf
    exact ⟨hrow.encodes,
      hrow.exec_of_stores (by decide) (val := fun c => c.a &&& c.x) (fun _ _ => rfl) (fun _ _ => rfl) s⟩
  case lax =>
    have hrow := laxForms_isRow v a w f hf
    exact ⟨hrow.encodes,
      hrow.exec_of_loads_setZN (put := fun b c => { c with a := b, x := b }) (fun _ _ => rfl) (fun _ _ _ => rfl) s⟩
  case anc =>
    have hrow := ancForms_isRow v a w f hf
    refine ⟨hrow.encodes, _, flagsAre_withFlag_withZN _ _, ?_⟩
    have hexec := hrow.exec_of_loads (g := fun b c => { c with
      a := c.a &&& b
      p := withFlag (withZN c.p (c.a &&& b)) .c (flagOf (withZN c.p (c.a &&& b)) .n) })
      (fun _ _ => rfl) (fun _ _ _ => rfl) s
    rwa [Form.src_of_imm (ancForms_operand v a w f hf)] at hexec
  case alr =>
    have hrow := alrForms_isRow v a w f hf
    have hr : lsrResult t = r := lsrResult_eq t
    rw [← hr]
    refine ⟨hrow.encodes, _, flagsAre_shiftP _ _ _, ?_⟩
    have hexec := hrow.exec_of_loads (g := fun b c => { c with
      a := lsrResult (c.a &&& b), p := shiftP c.p ((c.a &&& b).getLsbD 0) (lsrResult (c.a &&& b)) })
      (fun _ _ => rfl) (fun _ _ _ => rfl) s
    rwa [Form.src_of_imm (alrForms_operand v a w f hf)] at hexec

/-- Settles O30: neither performs anything; `imp1` resolves as the implied mode does. -/
theorem noOperationResults : Obligations.NoOperationResults := by
  intro v a w s
  refine ⟨fun f hf => ?nopU, fun op => ⟨rfl, ?undef⟩⟩
  case nopU =>
    have hrow := nopUForms_isRow v a w f hf
    exact ⟨hrow.encodes, hrow.exec_of_performs_nothing (fun _ _ => rfl) s⟩
  case undef =>
    exact run_implied (perform := undef) (g := id) (fun _ => rfl) (fun _ _ => rfl) 1 s

end Sys2Proof.Machine
end

section
/-! SUPPORT. The PPU's registers at their mirrors, and the bits that each write puts in t (50 R288 to R300). -/

namespace Sys2Proof.Machine

open Sys2Proof.Claims

/-- A read of a mirror of register `r` is a read of the register (20 R77). -/
theorem memRead_register {a : Addr} {r : Nat} (h : IsRegister a r) (s : State) :
    memRead s a =
      ((Ppu.readRegister s.cart s.ppu r).1, { s with ppu := (Ppu.readRegister s.cart s.ppu r).2 }) := by
  obtain ⟨hlow, hhigh, rfl⟩ := h
  exact memRead_ppu s hlow hhigh

/-- A write to a mirror of register `r` is a write to the register (20 R77). -/
theorem memWrite_register {a : Addr} {r : Nat} (h : IsRegister a r) (s : State) (d : Byte) :
    memWrite s a d =
      { s with cart := (Ppu.writeRegister s.cart s.ppu r d).1, ppu := (Ppu.writeRegister s.cart s.ppu r d).2 } := by
  obtain ⟨hlow, hhigh, rfl⟩ := h
  exact memWrite_ppu s d hlow hhigh

theorem writesPpu_of_writeRegister {a : Addr} {r : Nat} {s : State} {d : Byte} {p : Ppu} (h : IsRegister a r)
    (hw : Ppu.writeRegister s.cart s.ppu r d = (s.cart, p)) : WritesPpu s a d p := by
  rw [WritesPpu, memWrite_register h, hw]

/-- A register outside this list reads as 0 (50 R289, D16). -/
theorem readRegister_writeOnly (c : Cart) (p : Ppu) {r : Nat} (h : r ∈ [0, 1, 3, 5, 6]) :
    Ppu.readRegister c p r = (0, p) := by
  simp only [List.mem_cons, List.not_mem_nil, or_false] at h
  rcases h with rfl | rfl | rfl | rfl | rfl <;> rfl

theorem PpuStatus.byte_eq (s : PpuStatus) :
    s.byte = BitVec.ofNat 8 (128 * num s.vblank + 64 * num s.spr0Hit + 32 * num s.sprOverflow) := by
  obtain ⟨overflow, hit, vblank⟩ := s
  cases overflow <;> cases hit <;> cases vblank <;> rfl

/-- PPUCTRL's low two bits go to t[11:10] (50 R290). -/
theorem writeCtrl_t (p : Ppu) (d : Byte) : ∀ i < 15, (p.writeCtrl d).t.getLsbD i =
    if i = 10 then d.getLsbD 0 else if i = 11 then d.getLsbD 1 else p.t.getLsbD i := by
  intro i hi
  show (p.t &&& ~~~0x0C00#15 ||| (d &&& 3).zeroExtend 15 <<< 10).getLsbD i = _
  interval_cases i <;> simp

/-- The first scroll write: the coarse X of t (50 R296). -/
theorem writeScroll_first {p : Ppu} (h : p.w = false) (d : Byte) :
    ∃ t : BitVec 15, (∀ i < 15, t.getLsbD i = if i < 5 then d.getLsbD (3 + i) else p.t.getLsbD i)
      ∧ p.writeScroll d = { p with x := d.extractLsb' 0 3, t := t, w := true } := by
  rw [Ppu.writeScroll, if_pos h]
  refine ⟨_, fun i hi => ?_, rfl⟩
  interval_cases i <;> simp

/-- The second scroll write: the fine and the coarse Y of t (50 R296, D18). -/
theorem writeScroll_second {p : Ppu} (h : p.w = true) (d : Byte) :
    ∃ t : BitVec 15, (∀ i < 15, t.getLsbD i =
        if 12 ≤ i then d.getLsbD (i - 12) else if 5 ≤ i ∧ i < 10 then d.getLsbD (i - 2) else p.t.getLsbD i)
      ∧ p.writeScroll d = { p with t := t, w := false } := by
  rw [Ppu.writeScroll, if_neg (ne_false_of_eq_true h)]
  refine ⟨_, fun i hi => ?_, rfl⟩
  interval_cases i <;> simp

/-- The first address write: the high bits of t, bit 14 cleared (50 R298). -/
theorem writeAddr_first {p : Ppu} (h : p.w = false) (d : Byte) :
    ∃ t : BitVec 15, (∀ i < 15, t.getLsbD i =
        if i = 14 then false else if 8 ≤ i then d.getLsbD (i - 8) else p.t.getLsbD i)
      ∧ p.writeAddr d = { p with t := t, w := true } := by
  rw [Ppu.writeAddr, if_pos h]
  refine ⟨_, fun i hi => ?_, rfl⟩
  interval_cases i <;> simp

/-- The second address write: the low byte of t, and all of t to v (50 R298). -/
theorem writeAddr_second {p : Ppu} (h : p.w = true) (d : Byte) :
    ∃ t : BitVec 15, (∀ i < 15, t.getLsbD i = if i < 8 then d.getLsbD i else p.t.getLsbD i)
      ∧ p.writeAddr d = { p with t := t, v := t, w := false } := by
  rw [Ppu.writeAddr, if_neg (ne_false_of_eq_true h)]
  refine ⟨_, fun i hi => ?_, rfl⟩
  interval_cases i <;> simp

end Sys2Proof.Machine
end

section
/-! SUPPORT. The PPU bus, region by region, and the data port (50 R280 to R283, R297, R299). -/

namespace Sys2Proof.Machine

open Sys2Proof.Claims

theorem ppuBusRead_pattern {a : Addr} (c : Cart) (p : Ppu) (h : ppuAddr a < 0x2000) :
    ppuBusRead c p a = c.chr.read (c.chrOffset (ppuAddr a)) := by
  simp only [ppuBusRead, if_pos h, Cart.ppuRead]

theorem ppuBusRead_nametable {a : Addr} (c : Cart) (p : Ppu) (h : 0x2000 ≤ ppuAddr a) (h' : ppuAddr a < 0x3F00) :
    ppuBusRead c p a = p.nt.read (ntIndex c.mirroring (ppuAddr a)) := by
  simp only [ppuBusRead, if_neg (Nat.not_lt.2 h), if_pos h']

theorem ppuBusRead_palette {a : Addr} (c : Cart) (p : Ppu) (h : 0x3F00 ≤ ppuAddr a) :
    ppuBusRead c p a = p.pal.read (palIndex (ppuAddr a)) := by
  have hnt : ¬ ppuAddr a < 0x2000 := by omega
  simp only [ppuBusRead, if_neg hnt, if_neg (Nat.not_lt.2 h)]

theorem ppuBusWrite_pattern {a : Addr} (c : Cart) (p : Ppu) (d : Byte) (h : ppuAddr a < 0x2000) :
    ppuBusWrite c p a d = (c.ppuWrite (ppuAddr a) d, p) := by
  simp only [ppuBusWrite, if_pos h]

theorem ppuBusWrite_nametable {a : Addr} (c : Cart) (p : Ppu) (d : Byte) (h : 0x2000 ≤ ppuAddr a)
    (h' : ppuAddr a < 0x3F00) :
    ppuBusWrite c p a d = (c, { p with nt := p.nt.write (ntIndex c.mirroring (ppuAddr a)) d }) := by
  simp only [ppuBusWrite, if_neg (Nat.not_lt.2 h), if_pos h']

theorem ppuBusWrite_palette {a : Addr} (c : Cart) (p : Ppu) (d : Byte) (h : 0x3F00 ≤ ppuAddr a) :
    ppuBusWrite c p a d = (c, { p with pal := p.pal.write (palIndex (ppuAddr a)) d }) := by
  have hnt : ¬ ppuAddr a < 0x2000 := by omega
  simp only [ppuBusWrite, if_neg hnt, if_neg (Nat.not_lt.2 h)]

/-- The bus address of v (10 R37). -/
theorem Ppu.vAddr_eq (p : Ppu) : p.vAddr = BitVec.ofNat 16 (p.v.toNat % 0x4000) := by
  apply BitVec.eq_of_toNat_eq
  have hv := p.v.isLt
  have hmask := Nat.and_two_pow_sub_one_eq_mod p.v.toNat 14
  simp only [Ppu.vAddr, vWide, BitVec.toNat_and, BitVec.toNat_setWidth, BitVec.toNat_ofNat,
    Nat.mod_eq_of_lt (show p.v.toNat < 2 ^ 16 by omega)]
  exact hmask.trans (Nat.mod_eq_of_lt (by omega)).symm

theorem Ppu.advanceV_eq (p : Ppu) :
    p.advanceV = { p with v := BitVec.ofNat 15 (p.v.toNat + (if p.ctrl.inc32 then 32 else 1)) } := by
  rw [Ppu.advanceV, BitVec.ofNat_add, BitVec.ofNat_toNat, BitVec.setWidth_eq]
  cases p.ctrl.inc32 <;> rfl

/-- No access of the PPU bus writes PPUCTRL or v. -/
theorem ppuBusWrite_keeps (c : Cart) (p : Ppu) (a : Addr) (d : Byte) :
    (ppuBusWrite c p a d).2.ctrl = p.ctrl ∧ (ppuBusWrite c p a d).2.v = p.v := by
  rw [ppuBusWrite_eq]
  exact ⟨rfl, rfl⟩

/-- A write of the data port: a bus write at v, then v's increment (50 R299). -/
theorem writeData_eq (c : Cart) (p : Ppu) (d : Byte) :
    Ppu.writeData c p d =
      ((ppuBusWrite c p p.vAddr d).1,
        { (ppuBusWrite c p p.vAddr d).2 with
          v := BitVec.ofNat 15 (p.v.toNat + (if p.ctrl.inc32 then 32 else 1)) }) := by
  obtain ⟨hctrl, hv⟩ := ppuBusWrite_keeps c p p.vAddr d
  rw [← hctrl, ← hv]
  exact congrArg _ (Ppu.advanceV_eq _)

/-- A read of the data port: the buffer, or in the palette the byte there; the refilled buffer; v's increment (50 R297). -/
theorem readData_eq (c : Cart) (p : Ppu) :
    Ppu.readData c p =
      (if p.vAddr.toNat < 0x3F00 then p.readBuffer else ppuBusRead c p p.vAddr,
        { p with
          v := BitVec.ofNat 15 (p.v.toNat + (if p.ctrl.inc32 then 32 else 1))
          readBuffer :=
            if p.vAddr.toNat < 0x3F00 then ppuBusRead c p p.vAddr else ppuBusRead c p (p.vAddr - 0x1000) }) := by
  rw [Ppu.readData]
  split
  · exact congrArg _ (Ppu.advanceV_eq _)
  · exact congrArg _ (Ppu.advanceV_eq _)

/-- CHR-RAM after a write: the byte at every pattern address of the same offset, and no other (21 R115). -/
theorem ppuBusRead_chrRam_write {c : Cart} (p : Ppu) {n : Nat} (d : Byte) (h : c.chrIsRam = true) (b : Addr) :
    ppuBusRead (c.ppuWrite n d) p b =
      if ppuAddr b < 0x2000 ∧ c.chrOffset (ppuAddr b) = c.chrOffset n then d else ppuBusRead c p b := by
  rw [Cart.ppuWrite, if_pos h]
  by_cases hb : ppuAddr b < 0x2000
  · rw [ppuBusRead_pattern _ _ hb, ppuBusRead_pattern _ _ hb]
    simp only [hb, true_and]
    exact Memory.read_write _ _ _ _
  · rw [if_neg fun g => hb g.1]
    simp only [ppuBusRead, if_neg hb]
    rfl

/-- The palette entry of an offset in $3F00-$3FFF (50 R283). -/
theorem palIndex_eq (i : Nat) : palIndex (0x3F00 + i) = if i % 4 = 0 then i % 16 else i % 32 := by
  unfold palIndex
  have hmod : (0x3F00 + i) % 32 = i % 32 := by omega
  simp only [hmod]
  split <;> split <;> omega

theorem ppuAddr_ofNat {n : Nat} (h : n < 0x4000) : ppuAddr (BitVec.ofNat 16 n) = n := by
  rw [ppuAddr, BitVec.toNat_ofNat]
  omega

end Sys2Proof.Machine
end

section
/-! The family of file 50: the PPU's registers, its bus, and its memories. -/

namespace Sys2Proof.Machine

open Sys2Proof.Claims

/-- Settles O41: each write is the register's, and each read its. -/
theorem ppuControlRegisters : Obligations.PpuControlRegisters := by
  intro s a d p
  refine ⟨fun h => ?ctrl, fun h => ?mask, fun h => ⟨?status, ?flags, ?cleared⟩, fun h => ?oamAddr,
    fun h => ⟨?oamData, ?oamRead⟩, fun ⟨r, hr, h⟩ => ?writeOnly⟩
  case ctrl => exact ⟨_, writeCtrl_t p d, writesPpu_of_writeRegister h rfl⟩
  case mask =>
    refine ⟨d.extractLsb' 5 3, fun i hi => ?_, writesPpu_of_writeRegister h rfl⟩
    rw [BitVec.getLsbD_extractLsb', decide_eq_true hi, Bool.true_and]
  case status => exact writesPpu_of_writeRegister h rfl
  case flags => exact (congrArg Prod.fst (memRead_register h s)).trans (PpuStatus.byte_eq p.status)
  case cleared => exact congrArg Prod.snd (memRead_register h s)
  case oamAddr => exact writesPpu_of_writeRegister h rfl
  case oamData => exact writesPpu_of_writeRegister h rfl
  case oamRead => exact memRead_register h s
  case writeOnly => rw [memRead_register h, readRegister_writeOnly _ _ hr]

/-- Settles O42: the two writes of each port. -/
theorem ppuScrollAndAddressWrites : Obligations.PpuScrollAndAddressWrites := by
  intro s a d p
  have writes {r : Nat} {q : Ppu} (h : IsRegister a r) (hr : Ppu.writeRegister s.cart p r d = (s.cart, q)) :
      WritesPpu s a d q := writesPpu_of_writeRegister h hr
  refine ⟨fun h hw => ?scroll1, fun h hw => ?scroll2, fun h hw => ?addr1, fun h hw => ?addr2⟩
  case scroll1 =>
    obtain ⟨t, ht, heq⟩ := writeScroll_first hw d
    refine ⟨_, t, fun i hi => ?_, ht, writes h (congrArg (Prod.mk s.cart) heq)⟩
    rw [BitVec.getLsbD_extractLsb', decide_eq_true hi, Bool.true_and, Nat.zero_add]
  case scroll2 =>
    obtain ⟨t, ht, heq⟩ := writeScroll_second hw d
    exact ⟨t, ht, writes h (congrArg (Prod.mk s.cart) heq)⟩
  case addr1 =>
    obtain ⟨t, ht, heq⟩ := writeAddr_first hw d
    exact ⟨t, ht, writes h (congrArg (Prod.mk s.cart) heq)⟩
  case addr2 =>
    obtain ⟨t, ht, heq⟩ := writeAddr_second hw d
    exact ⟨t, ht, writes h (congrArg (Prod.mk s.cart) heq)⟩

/-- Settles O43: the data port accesses the bus at v; on that bus CHR-RAM is written and CHR-ROM is not. -/
theorem ppuDataPort : Obligations.PpuDataPort := by
  refine ⟨fun s a d h => ?port, fun c p a d => ?chr⟩
  case port =>
    intro p n v' at' b
    have hn : n < 0x4000 := Nat.mod_lt _ (by decide)
    have hv : p.vAddr = BitVec.ofNat 16 n := p.vAddr_eq
    have hvNat : p.vAddr.toNat = n := by rw [hv, BitVec.toNat_ofNat, Nat.mod_eq_of_lt (by omega)]
    refine ⟨?write, ?read⟩
    case write =>
      rw [memWrite_register h]
      simp only [Ppu.writeRegister, writeData_eq, Ppu.vAddr_eq]
      rfl
    case read =>
      have hbelow : ¬ n < 0x3F00 → p.vAddr - 0x1000 = BitVec.ofNat 16 (n - 0x1000) := fun hp => by
        rw [hv]
        exact BitVec.eq_of_toNat_eq (by simp; omega)
      rw [memRead_register h]
      show ((Ppu.readData s.cart p).1, { s with ppu := (Ppu.readData s.cart p).2 }) = _
      rw [readData_eq, hvNat]
      by_cases hp : n < 0x3F00
      · simp only [if_pos hp, hv]
        rfl
      · simp only [if_neg hp, hbelow hp]
        simp only [hv]
        rfl
  case chr =>
    intro n w hn
    have hw : w = (c.ppuWrite n d, p) := ppuBusWrite_pattern c p d hn
    refine ⟨ppuBusRead_pattern c p hn, fun hram b => ?ram, fun hrom => ?rom⟩
    case ram =>
      rw [hw]
      exact ppuBusRead_chrRam_write p d hram b
    case rom => rw [hw, Cart.ppuWrite, if_neg (ne_true_of_eq_false hrom)]

/-- Settles O44: below $3F00 the bus address is the address itself. -/
theorem nametableMirroring : Obligations.NametableMirroring := by
  intro c p a d n q table hlow hhigh
  have ha : ppuAddr a = a.toNat := Nat.mod_eq_of_lt (by omega)
  have hindex : ntIndex c.mirroring (ppuAddr a) = 0x400 * table + n % 0x400 := by
    rw [ha]
    rfl
  rw [← hindex]
  exact ⟨ppuBusRead_nametable c p (by omega) (by omega), ppuBusWrite_nametable c p d (by omega) (by omega)⟩

/-- Settles O45: both addresses are in the palette, each at its entry. -/
theorem paletteMirroring : Obligations.PaletteMirroring := by
  intro c p i j d hi hj entry r
  have hai : ppuAddr (BitVec.ofNat 16 (0x3F00 + i)) = 0x3F00 + i := ppuAddr_ofNat (by omega)
  have haj : ppuAddr (BitVec.ofNat 16 (0x3F00 + j)) = 0x3F00 + j := ppuAddr_ofNat (by omega)
  have hr : r = (c, { p with pal := p.pal.write (entry i) d }) := by
    show ppuBusWrite _ _ _ _ = _
    rw [ppuBusWrite_palette c p d (by omega), hai, palIndex_eq]
  rw [hr, ppuBusRead_palette c _ (by omega), ppuBusRead_palette c _ (by omega), haj, palIndex_eq, Memory.read_write]
  exact if_congr eq_comm rfl rfl

end Sys2Proof.Machine
end

section
/-! SUPPORT. The scroll register v as its five fields, and what the increments make of each (10 R37, 51 R319, R320). -/

namespace Sys2Proof.Machine

theorem toNat_append_eq {m n : Nat} (x : BitVec m) (y : BitVec n) : (x ++ y).toNat = x.toNat * 2 ^ n + y.toNat := by
  rw [BitVec.toNat_append, ← Nat.shiftLeft_add_eq_or_of_lt y.isLt, Nat.shiftLeft_eq]

/-- The scroll word of fine Y, the vertical and the horizontal nametable bit, coarse Y and coarse X (10 R37). -/
def scrollWord (fineY : BitVec 3) (tableY tableX : BitVec 1) (coarseY coarseX : BitVec 5) : BitVec 15 :=
  fineY ++ tableY ++ tableX ++ coarseY ++ coarseX

theorem exists_scrollWord (v : BitVec 15) :
    ∃ fineY tableY tableX coarseY coarseX, v = scrollWord fineY tableY tableX coarseY coarseX := by
  refine ⟨v.extractLsb' 12 3, v.extractLsb' 11 1, v.extractLsb' 10 1, v.extractLsb' 5 5, v.extractLsb' 0 5, ?_⟩
  apply BitVec.eq_of_getLsbD_eq
  intro i hi
  simp only [scrollWord, BitVec.getLsbD_append, BitVec.getLsbD_extractLsb']
  interval_cases i <;> simp

/-- `increment_y`, one case for each of its outcomes. -/
theorem incrementY_eq (v : BitVec 15) :
    incrementY v =
      let v1 := v &&& ~~~0x7000#15
      let y := (v1 &&& 0x03E0#15) >>> 5
      if v &&& 0x7000#15 ≠ 0x7000#15 then v + 0x1000#15
      else if y = 29#15 then ((v1 ^^^ 0x0800#15) &&& ~~~0x03E0#15) ||| (0#15 <<< 5)
      else if y = 31#15 then (v1 &&& ~~~0x03E0#15) ||| (0#15 <<< 5)
      else (v1 &&& ~~~0x03E0#15) ||| ((y + 1#15) <<< 5) := by
  simp only [incrementY, BitVec.ofNat_eq_ofNat]
  split_ifs <;> rfl

section

variable (fineY : BitVec 3) (tableY tableX : BitVec 1) (coarseY coarseX : BitVec 5)

theorem toNat_scrollWord :
    (scrollWord fineY tableY tableX coarseY coarseX).toNat =
      4096 * fineY.toNat + 2048 * tableY.toNat + 1024 * tableX.toNat + 32 * coarseY.toNat + coarseX.toNat := by
  simp only [scrollWord, toNat_append_eq]
  omega

/-- Each field of a scroll word, as a part of its number. -/
theorem scrollWord_fields :
    let v := (scrollWord fineY tableY tableX coarseY coarseX).toNat
    v / 4096 = fineY.toNat ∧ v / 2048 % 2 = tableY.toNat ∧ v / 1024 % 2 = tableX.toNat ∧ v / 32 % 32 = coarseY.toNat
      ∧ v % 32 = coarseX.toNat := by
  have hcx := coarseX.isLt
  have hcy := coarseY.isLt
  have hnx := tableX.isLt
  have hny := tableY.isLt
  simp only [toNat_scrollWord]
  omega

theorem scrollWord_and (fineY' : BitVec 3) (tableY' tableX' : BitVec 1) (coarseY' coarseX' : BitVec 5) :
    scrollWord fineY tableY tableX coarseY coarseX &&& scrollWord fineY' tableY' tableX' coarseY' coarseX' =
      scrollWord (fineY &&& fineY') (tableY &&& tableY') (tableX &&& tableX') (coarseY &&& coarseY')
        (coarseX &&& coarseX') :=
  BitVec.and_append.trans (by rw [BitVec.and_append, BitVec.and_append, BitVec.and_append]; rfl)

theorem scrollWord_or (fineY' : BitVec 3) (tableY' tableX' : BitVec 1) (coarseY' coarseX' : BitVec 5) :
    scrollWord fineY tableY tableX coarseY coarseX ||| scrollWord fineY' tableY' tableX' coarseY' coarseX' =
      scrollWord (fineY ||| fineY') (tableY ||| tableY') (tableX ||| tableX') (coarseY ||| coarseY')
        (coarseX ||| coarseX') :=
  BitVec.or_append.trans (by rw [BitVec.or_append, BitVec.or_append, BitVec.or_append]; rfl)

theorem scrollWord_xor (fineY' : BitVec 3) (tableY' tableX' : BitVec 1) (coarseY' coarseX' : BitVec 5) :
    scrollWord fineY tableY tableX coarseY coarseX ^^^ scrollWord fineY' tableY' tableX' coarseY' coarseX' =
      scrollWord (fineY ^^^ fineY') (tableY ^^^ tableY') (tableX ^^^ tableX') (coarseY ^^^ coarseY')
        (coarseX ^^^ coarseX') :=
  BitVec.xor_append.trans (by rw [BitVec.xor_append, BitVec.xor_append, BitVec.xor_append]; rfl)

/-- The word whose fields but one are 0 holds that one's number. -/
theorem scrollWord_eq_iff (fineY' : BitVec 3) (tableY' tableX' : BitVec 1) (coarseY' coarseX' : BitVec 5) :
    scrollWord fineY tableY tableX coarseY coarseX = scrollWord fineY' tableY' tableX' coarseY' coarseX' ↔
      fineY = fineY' ∧ tableY = tableY' ∧ tableX = tableX' ∧ coarseY = coarseY' ∧ coarseX = coarseX' := by
  constructor
  · intro h
    have hf := scrollWord_fields fineY tableY tableX coarseY coarseX
    rw [h] at hf
    have hf' := scrollWord_fields fineY' tableY' tableX' coarseY' coarseX'
    simp only [← BitVec.toNat_inj]
    omega
  · rintro ⟨rfl, rfl, rfl, rfl, rfl⟩
    rfl

/-- Coarse X counts; 31 wraps to 0 and flips the horizontal nametable bit (51 R319, D27). -/
theorem incrementX_scrollWord :
    incrementX (scrollWord fineY tableY tableX coarseY coarseX) =
      if coarseX = 31#5 then scrollWord fineY tableY (tableX ^^^ 1#1) coarseY 0#5
      else scrollWord fineY tableY tableX coarseY (coarseX + 1#5) := by
  have hlow : 0x001F#15 = scrollWord 0#3 0#1 0#1 0#5 (.allOnes 5) := rfl
  have hhigh : ~~~0x001F#15 = scrollWord (.allOnes 3) (.allOnes 1) (.allOnes 1) (.allOnes 5) 0#5 := rfl
  have hflip : 0x0400#15 = scrollWord 0#3 0#1 1#1 0#5 0#5 := rfl
  have hlast : scrollWord fineY tableY tableX coarseY coarseX &&& 0x001F#15 = 0x001F#15 ↔ coarseX = 31#5 := by
    rw [hlow, scrollWord_and, scrollWord_eq_iff]
    simp only [BitVec.and_allOnes, BitVec.and_zero, true_and]
    exact Iff.rfl
  show (if _ &&& 0x001F#15 = 0x001F#15 then (_ &&& ~~~0x001F#15) ^^^ 0x0400#15 else _ + 1#15) = _
  by_cases h : coarseX = 31#5
  · rw [if_pos (hlast.2 h), if_pos h, hhigh, scrollWord_and, hflip, scrollWord_xor]
    simp only [BitVec.and_allOnes, BitVec.and_zero, BitVec.xor_zero]
  · rw [if_neg (mt hlast.1 h), if_neg h]
    apply BitVec.eq_of_toNat_eq
    have hcx := coarseX.isLt
    have hlt := (scrollWord fineY tableY tableX coarseY coarseX).isLt
    rw [← BitVec.toNat_inj, show (31#5).toNat = 31 from rfl] at h
    simp only [BitVec.toNat_add, BitVec.toNat_ofNat, toNat_scrollWord] at hlt ⊢
    omega

/-- Fine Y counts and carries into coarse Y, which wraps from 29 to 0 with a flip of the vertical nametable bit and from 31 to 0
without (51 R320). -/
theorem incrementY_scrollWord :
    incrementY (scrollWord fineY tableY tableX coarseY coarseX) =
      if fineY ≠ 7#3 then scrollWord (fineY + 1#3) tableY tableX coarseY coarseX
      else if coarseY = 29#5 then scrollWord 0#3 (tableY ^^^ 1#1) tableX 0#5 coarseX
      else if coarseY = 31#5 then scrollWord 0#3 tableY tableX 0#5 coarseX
      else scrollWord 0#3 tableY tableX (coarseY + 1#5) coarseX := by
  have hfine : 0x7000#15 = scrollWord (.allOnes 3) 0#1 0#1 0#5 0#5 := rfl
  have hnotFine : ~~~0x7000#15 = scrollWord 0#3 (.allOnes 1) (.allOnes 1) (.allOnes 5) (.allOnes 5) := rfl
  have hcoarse : 0x03E0#15 = scrollWord 0#3 0#1 0#1 (.allOnes 5) 0#5 := rfl
  have hnotCoarse : ~~~0x03E0#15 = scrollWord (.allOnes 3) (.allOnes 1) (.allOnes 1) 0#5 (.allOnes 5) := rfl
  have hflip : 0x0800#15 = scrollWord 0#3 1#1 0#1 0#5 0#5 := rfl
  have hcarry : scrollWord fineY tableY tableX coarseY coarseX &&& 0x7000#15 = 0x7000#15 ↔ fineY = 7#3 := by
    rw [hfine, scrollWord_and, scrollWord_eq_iff]
    simp only [BitVec.and_allOnes, BitVec.and_zero, and_true]
    exact Iff.rfl
  have hdown (y : BitVec 5) : scrollWord 0#3 0#1 0#1 y 0#5 >>> 5 = scrollWord 0#3 0#1 0#1 0#5 y := by
    apply BitVec.eq_of_toNat_eq
    simp [toNat_scrollWord, Nat.shiftRight_eq_div_pow]
  have hup (y : BitVec 5) : scrollWord 0#3 0#1 0#1 0#5 y <<< 5 = scrollWord 0#3 0#1 0#1 y 0#5 := by
    apply BitVec.eq_of_toNat_eq
    have := y.isLt
    simp [toNat_scrollWord, Nat.shiftLeft_eq]
    omega
  have hsucc {y : BitVec 5} (hy : y ≠ 31#5) :
      scrollWord 0#3 0#1 0#1 0#5 y + 1#15 = scrollWord 0#3 0#1 0#1 0#5 (y + 1#5) := by
    apply BitVec.eq_of_toNat_eq
    have hlt := y.isLt
    rw [ne_eq, ← BitVec.toNat_inj, show (31#5).toNat = 31 from rfl] at hy
    simp only [BitVec.toNat_add, BitVec.toNat_ofNat, toNat_scrollWord]
    omega
  have his (y : BitVec 5) (n : BitVec 5) :
      scrollWord 0#3 0#1 0#1 0#5 y = scrollWord 0#3 0#1 0#1 0#5 n ↔ y = n := by
    simp only [scrollWord_eq_iff, true_and]
  rw [incrementY_eq]
  simp only
  by_cases hf : fineY = 7#3
  · rw [if_neg (not_not_intro (hcarry.2 hf)), if_neg (not_not_intro hf), hnotFine, hnotCoarse, hcoarse, hflip,
      show 29#15 = scrollWord 0#3 0#1 0#1 0#5 29#5 from rfl, show 31#15 = scrollWord 0#3 0#1 0#1 0#5 31#5 from rfl,
      show 0#15 = scrollWord 0#3 0#1 0#1 0#5 0#5 from rfl]
    simp only [scrollWord_and, scrollWord_xor, BitVec.and_allOnes, BitVec.and_zero, BitVec.xor_zero, hdown, his]
    by_cases h29 : coarseY = 29#5
    · rw [if_pos h29, if_pos h29, hup, scrollWord_or]
      simp only [BitVec.or_zero]
    · rw [if_neg h29, if_neg h29]
      by_cases h31 : coarseY = 31#5
      · rw [if_pos h31, if_pos h31, hup, scrollWord_or]
        simp only [BitVec.or_zero]
      · rw [if_neg h31, if_neg h31, hsucc h31, hup, scrollWord_or]
        simp only [BitVec.or_zero, BitVec.zero_or]
  · rw [if_pos (mt hcarry.1 hf), if_pos hf]
    apply BitVec.eq_of_toNat_eq
    have hfy := fineY.isLt
    have hlt := (scrollWord fineY tableY tableX coarseY coarseX).isLt
    rw [← BitVec.toNat_inj, show (7#3).toNat = 7 from rfl] at hf
    simp only [BitVec.toNat_add, BitVec.toNat_ofNat, toNat_scrollWord] at hlt ⊢
    omega

end

theorem toNat_flip (b : BitVec 1) : (b ^^^ 1#1).toNat = 1 - b.toNat := by
  revert b
  decide

/-- Counting a field of coarse coordinates that is not at its end. -/
theorem toNat_add_one {w : Nat} {y : BitVec w} (h : y.toNat + 1 < 2 ^ w) : (y + 1#w).toNat = y.toNat + 1 := by
  rw [BitVec.toNat_add, BitVec.toNat_ofNat, Nat.add_mod_mod, Nat.mod_eq_of_lt h]

/-- The horizontal increment, field by field (51 R319, D27). -/
theorem incrementX_fields (v : BitVec 15) :
    let w := incrementX v
    w.toNat % 32 = (if v.toNat % 32 = 31 then 0 else v.toNat % 32 + 1)
      ∧ w.toNat / 1024 % 2 = (if v.toNat % 32 = 31 then 1 - v.toNat / 1024 % 2 else v.toNat / 1024 % 2)
      ∧ w.toNat / 4096 = v.toNat / 4096 ∧ w.toNat / 32 % 32 = v.toNat / 32 % 32
      ∧ w.toNat / 2048 % 2 = v.toNat / 2048 % 2 := by
  obtain ⟨fineY, tableY, tableX, coarseY, coarseX, rfl⟩ := exists_scrollWord v
  have hcx := coarseX.isLt
  have h31 : coarseX = 31#5 ↔ coarseX.toNat = 31 := BitVec.toNat_inj.symm
  simp only [incrementX_scrollWord, scrollWord_fields, ← h31]
  by_cases h : coarseX = 31#5
  · simp only [if_pos h, scrollWord_fields, toNat_flip]
    exact ⟨rfl, trivial, trivial, trivial, trivial⟩
  · simp only [if_neg h, scrollWord_fields]
    exact ⟨toNat_add_one (by rw [h31] at h; omega), trivial, trivial, trivial, trivial⟩

/-- The vertical increment, field by field (51 R320). -/
theorem incrementY_fields (v : BitVec 15) :
    let w := incrementY v
    w.toNat % 32 = v.toNat % 32 ∧ w.toNat / 1024 % 2 = v.toNat / 1024 % 2
      ∧ (v.toNat / 4096 < 7 → w.toNat / 4096 = v.toNat / 4096 + 1 ∧ w.toNat / 32 % 32 = v.toNat / 32 % 32
        ∧ w.toNat / 2048 % 2 = v.toNat / 2048 % 2)
      ∧ (v.toNat / 4096 = 7 → w.toNat / 4096 = 0
        ∧ w.toNat / 32 % 32 =
          (if v.toNat / 32 % 32 = 29 ∨ v.toNat / 32 % 32 = 31 then 0 else v.toNat / 32 % 32 + 1)
        ∧ w.toNat / 2048 % 2 =
          if v.toNat / 32 % 32 = 29 then 1 - v.toNat / 2048 % 2 else v.toNat / 2048 % 2) := by
  obtain ⟨fineY, tableY, tableX, coarseY, coarseX, rfl⟩ := exists_scrollWord v
  have hfy := fineY.isLt
  have hcy := coarseY.isLt
  have h7 : fineY = 7#3 ↔ fineY.toNat = 7 := BitVec.toNat_inj.symm
  have h29 : coarseY = 29#5 ↔ coarseY.toNat = 29 := BitVec.toNat_inj.symm
  have h31 : coarseY = 31#5 ↔ coarseY.toNat = 31 := BitVec.toNat_inj.symm
  have hw := incrementY_scrollWord fineY tableY tableX coarseY coarseX
  by_cases hf : fineY = 7#3
  · rw [if_neg (not_not_intro hf)] at hw
    rw [h7] at hf
    by_cases hc : coarseY = 29#5
    · rw [if_pos hc] at hw
      rw [h29] at hc
      simp only [hw, scrollWord_fields, toNat_flip]
      simp [hf, hc]
    · rw [if_neg hc] at hw
      rw [h29] at hc
      by_cases hc' : coarseY = 31#5
      · rw [if_pos hc'] at hw
        rw [h31] at hc'
        simp [hw, scrollWord_fields, hf, hc']
      · rw [if_neg hc'] at hw
        rw [h31] at hc'
        have hsucc : (coarseY + 1#5).toNat = coarseY.toNat + 1 := toNat_add_one (by omega)
        simp [hw, scrollWord_fields, hsucc, hf, hc, hc']
  · rw [if_pos hf] at hw
    rw [h7] at hf
    have hsucc : (fineY + 1#3).toNat = fineY.toNat + 1 := toNat_add_one (by omega)
    simp [hw, scrollWord_fields, hsucc, hf]

end Sys2Proof.Machine
end

section
/-! SUPPORT. Where one dot moves v, and how (51 R310, R319 to R321). -/

namespace Sys2Proof.Machine

open Sys2Proof.Claims

theorem Ppu.rendering_iff (p : Ppu) : p.rendering = true ↔ p.mask.showBg = true ∨ p.mask.showSpr = true :=
  Iff.of_eq (Bool.or_eq_true _ _)

theorem fetchDot_iff (p : Ppu) : fetchDot p.dot = true ↔ OnFetchDot p := by
  simp only [fetchDot, Bool.or_eq_true, Bool.and_eq_true, decide_eq_true_eq]

/-- On every eighth fetch dot v counts horizontally, and on dot 256 vertically too, with rendering enabled (51 R319, R320). -/
theorem ppuTick_v_eighth {s : State} (hline : OnRenderingLine s.ppu) (hfetch : OnFetchDot s.ppu)
    (h8 : s.ppu.dot % 8 = 0) :
    (ppuTick s).ppu.v =
      if s.ppu.rendering then
        (if s.ppu.dot = 256 then incrementY (incrementX s.ppu.v) else incrementX s.ppu.v)
      else s.ppu.v := by
  have hlast : (s.ppu.dot - 1) % 8 = 7 := by omega
  have h257 : ¬ s.ppu.dot = 257 := by omega
  have hlow : ¬ (280 ≤ s.ppu.dot ∧ s.ppu.dot ≤ 304) := by omega
  rw [ppuTick_v, if_pos hline, renderingLineDot_v]
  cases s.ppu.rendering
  · simp
  · simp [(fetchDot_iff s.ppu).2 hfetch, hlast, h257]
    omega

/-- Dot 257 copies the horizontal bits of t with rendering enabled (51 R321). -/
theorem ppuTick_v_257 {s : State} (hline : OnRenderingLine s.ppu) (hdot : s.ppu.dot = 257) :
    (ppuTick s).ppu.v =
      if s.ppu.rendering then (s.ppu.v &&& ~~~0x041F#15) ||| (s.ppu.t &&& 0x041F#15) else s.ppu.v := by
  rw [ppuTick_v, if_pos hline, renderingLineDot_v, hdot]
  cases s.ppu.rendering <;> simp [fetchDot]

/-- Dots 280 to 304 of line -1 copy the vertical bits of t with rendering enabled (51 R321). -/
theorem ppuTick_v_preRender {s : State} (hline : s.ppu.scanline = -1) (hlow : 280 ≤ s.ppu.dot)
    (hhigh : s.ppu.dot ≤ 304) :
    (ppuTick s).ppu.v =
      if s.ppu.rendering then (s.ppu.v &&& ~~~0x7BE0#15) ||| (s.ppu.t &&& 0x7BE0#15) else s.ppu.v := by
  have hfetch : ¬ fetchDot s.ppu.dot = true := by rw [fetchDot_iff]; omega
  have h256 : ¬ s.ppu.dot = 256 := by omega
  have h257 : ¬ s.ppu.dot = 257 := by omega
  rw [ppuTick_v, if_pos (by omega), renderingLineDot_v]
  simp [hline, hlow, hhigh, hfetch, h256, h257]

/-- On every other dot v stays (51 R310). -/
theorem ppuTick_v_stays {s : State}
    (h8 : ¬ (OnRenderingLine s.ppu ∧ OnFetchDot s.ppu ∧ s.ppu.dot % 8 = 0))
    (hcopies : ¬ (OnRenderingLine s.ppu ∧
      (s.ppu.dot = 257 ∨ (s.ppu.scanline = -1 ∧ 280 ≤ s.ppu.dot ∧ s.ppu.dot ≤ 304)))) :
    (ppuTick s).ppu.v = s.ppu.v := by
  rw [ppuTick_v]
  split
  case isFalse => rfl
  case isTrue hline =>
    have hx : ¬ (fetchDot s.ppu.dot = true ∧ (s.ppu.dot - 1) % 8 = 7 ∧ s.ppu.rendering = true) := by
      rw [fetchDot_iff]
      omega
    have hy : ¬ (s.ppu.dot = 256 ∧ s.ppu.rendering = true) := by omega
    have hcopyX : ¬ (s.ppu.dot = 257 ∧ s.ppu.rendering = true) := by omega
    have hcopyY : ¬ (s.ppu.scanline = -1 ∧ 280 ≤ s.ppu.dot ∧ s.ppu.dot ≤ 304 ∧ s.ppu.rendering = true) := by omega
    rw [renderingLineDot_v]
    simp only [if_neg hx, if_neg hy, if_neg hcopyX, if_neg hcopyY]

/-- Bits copied from `t` into `v` where a mask has them. -/
theorem getLsbD_merge (m v t : BitVec 15) {i : Nat} (hi : i < 15) :
    ((v &&& ~~~m) ||| (t &&& m)).getLsbD i = if m.getLsbD i then t.getLsbD i else v.getLsbD i := by
  simp only [BitVec.getLsbD_or, BitVec.getLsbD_and, BitVec.getLsbD_not, hi, decide_true, Bool.true_and]
  cases m.getLsbD i <;> simp

end Sys2Proof.Machine
end

section
/-! SUPPORT. One dot of the background pipeline: the shift, the reload, and the addresses of the four fetches as numbers
(51 R314 to R318). -/

namespace Sys2Proof.Machine

open Sys2Proof.Claims

theorem toNat_vWide (v : BitVec 15) : (vWide v).toNat = v.toNat := by
  have hv := v.isLt
  rw [vWide, BitVec.toNat_setWidth, Nat.mod_eq_of_lt (by omega)]

/-- The nametable address of v (51 R316, D26). -/
theorem tileAddr_eq (v : BitVec 15) : tileAddr v = BitVec.ofNat 16 (0x2000 + v.toNat % 0x1000) := by
  have hfields : tileAddr v = 0x2#4 ++ v.extractLsb' 0 12 := by
    apply BitVec.eq_of_getLsbD_eq
    intro i hi
    simp only [tileAddr, vWide, BitVec.getLsbD_append, BitVec.getLsbD_extractLsb']
    interval_cases i <;> simp
  apply BitVec.eq_of_toNat_eq
  simp only [hfields, toNat_append_eq, BitVec.extractLsb'_toNat, Nat.shiftRight_zero, BitVec.toNat_ofNat, Nat.reducePow]
  omega

/-- The attribute address of v as its fields: the nametable, and the high bits of coarse Y and of coarse X (51 R317). -/
theorem attrAddr_fields (v : BitVec 15) :
    attrAddr v = 0x2#4 ++ v.extractLsb' 10 2 ++ 0xF#4 ++ v.extractLsb' 7 3 ++ v.extractLsb' 2 3 := by
  apply BitVec.eq_of_getLsbD_eq
  intro i hi
  simp only [attrAddr, vWide, BitVec.getLsbD_append, BitVec.getLsbD_extractLsb']
  interval_cases i <;> simp

/-- The attribute address of v (51 R317). -/
theorem attrAddr_eq (v : BitVec 15) :
    attrAddr v =
      BitVec.ofNat 16 (0x23C0 + v.toNat / 0x400 % 4 * 0x400 + v.toNat / 128 % 8 * 8 + v.toNat / 4 % 8) := by
  apply BitVec.eq_of_toNat_eq
  simp only [attrAddr_fields, toNat_append_eq, BitVec.extractLsb'_toNat, Nat.shiftRight_eq_div_pow, BitVec.toNat_ofNat,
    Nat.reducePow]
  omega

/-- The quadrant's shift (51 R317, D26). -/
theorem attrShift_eq (v : BitVec 15) : attrShift v = v.toNat / 64 % 2 * 4 + v.toNat / 2 % 2 * 2 := by
  have hfields : ((vWide v >>> 4) &&& 4) ||| (vWide v &&& 2) =
      0#13 ++ v.extractLsb' 6 1 ++ v.extractLsb' 1 1 ++ 0#1 := by
    apply BitVec.eq_of_getLsbD_eq
    intro i hi
    simp only [vWide, BitVec.getLsbD_append, BitVec.getLsbD_extractLsb']
    interval_cases i <;> simp
  rw [attrShift, hfields]
  simp only [toNat_append_eq, BitVec.extractLsb'_toNat, Nat.shiftRight_eq_div_pow, BitVec.toNat_ofNat,
    Nat.reducePow]
  omega

/-- The address of the low plane of the latched tile's row (51 R318, D26). -/
theorem Ppu.patternAddr_eq (p : Ppu) :
    p.patternAddr =
      BitVec.ofNat 16 ((if p.ctrl.bgTable then 0x1000 else 0) + 16 * p.latTile.toNat + p.v.toNat / 4096) := by
  have hv := p.v.isLt
  have ht := p.latTile.isLt
  have hrow : (vWide p.v >>> 12 &&& 7).toNat = p.v.toNat / 4096 := by
    rw [BitVec.toNat_and, BitVec.toNat_ushiftRight, toNat_vWide, Nat.shiftRight_eq_div_pow]
    exact (Nat.and_two_pow_sub_one_eq_mod _ 3).trans (Nat.mod_eq_of_lt (by omega))
  apply BitVec.eq_of_toNat_eq
  rw [Ppu.patternAddr, BitVec.toNat_add, hrow]
  cases p.ctrl.bgTable <;> simp

/-- A register after its shift, and after its shift and reload (51 R314, R316). -/
theorem shifted_eq (reload : Bool) (reg : BitVec 16) (b : Byte) :
    shifted reload reg b = if reload then loadLow (reg <<< 1) b else reg <<< 1 := by
  have hr := reg.isLt
  have hb := b.isLt
  have hload (r : BitVec 16) : loadLow r b = w16 (hi r) b := by
    apply BitVec.eq_of_getLsbD_eq
    intro i hi
    simp only [loadLow, getLsbD_w16, Sys2Proof.hi]
    interval_cases i <;> simp
  apply BitVec.eq_of_toNat_eq
  cases reload
  · simp [shifted, Nat.shiftLeft_eq]
    omega
  · simp [shifted, hload, toNat_w16, Sys2Proof.hi, BitVec.extractLsb'_toNat, Nat.shiftLeft_eq, Nat.shiftRight_eq_div_pow]
    omega

/-- What a fetch step reloads and fetches (51 R315 to R318). -/
theorem fetchStep_bgPart (c : Cart) {k : Nat} (hk : k < 8) (r : Bool) (p : Ppu) :
    (p.fetchStep c k r).bgPart =
      ((if k = 0 then loadLow p.bgPatLo p.latPatLo else p.bgPatLo,
        if k = 0 then loadLow p.bgPatHi p.latPatHi else p.bgPatHi,
        if k = 0 then loadLow p.bgAttrLo (spread (p.latAttr.getLsbD 0)) else p.bgAttrLo,
        if k = 0 then loadLow p.bgAttrHi (spread (p.latAttr.getLsbD 1)) else p.bgAttrHi),
       (if k = 4 then ppuBusRead c p p.patternAddr else p.latPatLo,
        if k = 6 then ppuBusRead c p (p.patternAddr + 8) else p.latPatHi,
        if k = 2 then (ppuBusRead c p (attrAddr p.v) >>> attrShift p.v).extractLsb' 0 2 else p.latAttr,
        if k = 0 then ppuBusRead c p (tileAddr p.v) else p.latTile)) := by
  unfold Ppu.fetchStep
  cases r <;> interval_cases k <;> rfl

/-- The background pipeline after a fetch dot of a rendering line: the shift, then the fetch step (51 R310). -/
theorem ppuTick_bgPart_fetch {s : State} (hline : OnRenderingLine s.ppu) (hfetch : OnFetchDot s.ppu) :
    (ppuTick s).ppu.bgPart =
      (s.ppu.shiftBackground.fetchStep s.cart ((s.ppu.dot - 1) % 8) s.ppu.rendering).bgPart := by
  rw [ppuTick_bgPart, if_pos hline, Ppu.backgroundDot, if_pos ((fetchDot_iff _).2 hfetch)]

/-- Elsewhere it stays (51 R310). -/
theorem ppuTick_bgPart_stays {s : State} (h : ¬ (OnRenderingLine s.ppu ∧ OnFetchDot s.ppu)) :
    (ppuTick s).ppu.bgPart = s.ppu.bgPart := by
  rw [ppuTick_bgPart]
  split
  case isTrue hline => rw [Ppu.backgroundDot, if_neg fun hfetch => h ⟨hline, (fetchDot_iff _).1 hfetch⟩]
  case isFalse => rfl

/-- The two bits of an attribute byte that a shift selects. -/
theorem toNat_quadrant (b : Byte) (n : Nat) : ((b >>> n).extractLsb' 0 2).toNat = b.toNat / 2 ^ n % 4 := by
  rw [BitVec.extractLsb'_toNat, BitVec.toNat_ushiftRight, Nat.shiftRight_zero, Nat.shiftRight_eq_div_pow]

end Sys2Proof.Machine
end

section
/-! The family of file 51: the scroll and the background. -/

namespace Sys2Proof.Machine

open Sys2Proof.Claims

/-- Settles O46: where v counts, by its fields, and where it stays. -/
theorem verticalIncrement : Obligations.VerticalIncrement := by
  intro s fineY coarseY tableY coarseX tableX v w on eighth copies
  have hon : s.ppu.rendering = true ↔ on := s.ppu.rendering_iff
  have counts (h : eighth) (hr : on) : w = if s.ppu.dot = 256 then incrementY (incrementX v) else incrementX v := by
    obtain ⟨hline, hfetch, h8⟩ := h
    exact (ppuTick_v_eighth hline hfetch h8).trans (if_pos (hon.2 hr))
  obtain ⟨hcoarseX, htableX, hfineY, hcoarseY, htableY⟩ := incrementX_fields v
  obtain ⟨hkeepX, hkeepTable, hcount, hcarry⟩ := incrementY_fields (incrementX v)
  refine ⟨fun ⟨hline, hfetch, h8⟩ hoff => ?off, fun h8 hcopies => ?elsewhere, fun h hr => ?horizontal,
    fun hline hdot hr => ?vertical⟩
  case off => exact (ppuTick_v_eighth hline hfetch h8).trans (if_neg (mt hon.1 hoff))
  case elsewhere => exact ppuTick_v_stays h8 hcopies
  case horizontal =>
    have hw := counts h hr
    by_cases hdot : s.ppu.dot = 256
    · rw [if_pos hdot] at hw
      rw [hw]
      exact ⟨hkeepX.trans hcoarseX, hkeepTable.trans htableX, fun hne => absurd hdot hne⟩
    · rw [if_neg hdot] at hw
      rw [hw]
      exact ⟨hcoarseX, htableX, fun _ => ⟨hfineY, hcoarseY, htableY⟩⟩
  case vertical =>
    have hw := counts ⟨hline, .inl (by rw [hdot]; decide), by rw [hdot]⟩ hr
    rw [if_pos hdot] at hw
    rw [hfineY, hcoarseY, htableY] at hcount hcarry
    rw [hw]
    exact ⟨hcount, hcarry⟩

/-- Settles O47: the copies bit by bit; the background pipeline, register by register. -/
theorem scrollCopies : Obligations.ScrollCopies := by
  intro s p t
  have hmerge (m : BitVec 15) {i : Nat} (hi : i < 15) :
      (if p.rendering then (p.v &&& ~~~m) ||| (p.t &&& m) else p.v).getLsbD i =
        if (p.mask.showBg || p.mask.showSpr) && m.getLsbD i then p.t.getLsbD i else p.v.getLsbD i := by
    rw [Ppu.rendering]
    cases p.mask.showBg || p.mask.showSpr
    · rfl
    · exact getLsbD_merge m p.v p.t hi
  refine ⟨fun hline hdot i hi => ?horizontal, fun hline hlow hhigh i hi => ?copyY, fun h => ?stays,
    fun hline hfetch => ?fetch⟩
  case horizontal =>
    rw [← hmerge _ hi]
    exact congrArg (BitVec.getLsbD · i) (ppuTick_v_257 hline hdot)
  case copyY =>
    rw [← hmerge _ hi]
    exact congrArg (BitVec.getLsbD · i) (ppuTick_v_preRender hline hlow hhigh)
  case stays => exact ppuTick_bgPart_stays h
  case fetch =>
    intro v k at' row spread
    have hk : k < 8 := Nat.mod_lt _ (by decide)
    have hparts := (ppuTick_bgPart_fetch hline hfetch).trans (fetchStep_bgPart s.cart hk _ _)
    simp only [Ppu.bgPart, Prod.mk.injEq] at hparts
    obtain ⟨⟨hPatLo, hPatHi, hAttrLo, hAttrHi⟩, hLatLo, hLatHi, hLatAttr, hTile⟩ := hparts
    simp only [shifted_eq, beq_iff_eq]
    have hrow : p.shiftBackground.patternAddr = BitVec.ofNat 16 row := p.patternAddr_eq
    refine ⟨hPatLo, hPatHi, hAttrLo, hAttrHi, hTile.trans ?tile, ?attr, hLatLo.trans ?low, hLatHi.trans ?high⟩
    case tile =>
      rw [tileAddr_eq]
      rfl
    case attr =>
      rw [hLatAttr, apply_ite BitVec.toNat, toNat_quadrant, attrShift_eq, attrAddr_eq]
      rfl
    case low =>
      rw [hrow]
      rfl
    case high =>
      rw [hrow, show BitVec.ofNat 16 row + 8 = BitVec.ofNat 16 (row + 8) from (BitVec.ofNat_add row 8).symm]
      rfl

end Sys2Proof.Machine
end

section
/-! SUPPORT. The status flags after one dot, and where each is raised and cleared (51 R313, R326, R332, R335). -/

namespace Sys2Proof.Machine

open Sys2Proof.Claims

/-- The status flags after one dot: those of the line's actions, vblank set on dot 1 of line 241 (51 R310). -/
theorem ppuTick_status (s : State) :
    (ppuTick s).ppu.status =
      let p := if s.ppu.scanline = -1 ∧ s.ppu.dot = 1 then s.ppu.clearStatus else s.ppu
      if OnRenderingLine s.ppu then (p.renderingLineDot s.cart s.ppu.scanline s.ppu.dot s.ppu.rendering).status
      else if s.ppu.scanline = 241 ∧ s.ppu.dot = 1 then { s.ppu.status with vblank := true }
      else s.ppu.status := by
  show (s.ppu.dotActions s.cart).advance.status = _
  obtain ⟨-, -, hstatus, -⟩ := advance_keeps (s.ppu.dotActions s.cart)
  rw [hstatus]
  unfold Ppu.dotActions
  simp only
  by_cases hline : OnRenderingLine s.ppu
  · rw [if_neg (show ¬ (s.ppu.scanline = 241 ∧ s.ppu.dot = 1) by omega), if_pos hline, if_pos hline]
  · rw [if_neg hline, if_neg hline, if_neg (show ¬ (s.ppu.scanline = -1 ∧ s.ppu.dot = 1) by omega)]
    split <;> rfl

/-- The status flags after a dot of a rendering line that does not clear them. -/
theorem ppuTick_status_line {s : State} (hline : OnRenderingLine s.ppu)
    (hclear : ¬ (s.ppu.scanline = -1 ∧ s.ppu.dot = 1)) :
    (ppuTick s).ppu.status =
      (s.ppu.renderingLineDot s.cart s.ppu.scanline s.ppu.dot s.ppu.rendering).status := by
  rw [ppuTick_status]
  simp only [if_pos hline, if_neg hclear]

/-- On the lines below the picture the flags stay, but for vblank's entry. -/
theorem ppuTick_status_below {s : State} (hline : ¬ OnRenderingLine s.ppu) :
    (ppuTick s).ppu.status =
      if s.ppu.scanline = 241 ∧ s.ppu.dot = 1 then { s.ppu.status with vblank := true } else s.ppu.status := by
  rw [ppuTick_status]
  simp only [if_neg hline]

/-- Dot 1 of line -1 clears the three flags (51 R313). -/
theorem ppuTick_status_clear {s : State} (hline : s.ppu.scanline = -1) (hdot : s.ppu.dot = 1) :
    (ppuTick s).ppu.status = ⟨false, false, false⟩ := by
  have hon : OnRenderingLine s.ppu := by omega
  obtain ⟨hvblank, -, hhit, -⟩ := renderingLineDot_outputs s.cart s.ppu.scanline s.ppu.dot s.ppu.rendering
    s.ppu.clearStatus rfl
  obtain ⟨hoverflow, -⟩ := renderingLineDot_flags s.cart s.ppu.scanline s.ppu.dot s.ppu.rendering s.ppu.clearStatus
  rw [ppuTick_status]
  simp only [if_pos hon, if_pos (And.intro hline hdot)]
  exact congr (congr (congrArg PpuStatus.mk (hoverflow (by omega))) (hhit (by omega)).2) hvblank

/-- vblank stays but where it is set and where the flags are cleared (51 R335). -/
theorem ppuTick_vblank_stays {s : State} (hentry : ¬ (s.ppu.scanline = 241 ∧ s.ppu.dot = 1))
    (hclear : ¬ (s.ppu.scanline = -1 ∧ s.ppu.dot = 1)) :
    (ppuTick s).ppu.status.vblank = s.ppu.status.vblank := by
  by_cases hline : OnRenderingLine s.ppu
  · rw [ppuTick_status_line hline hclear]
    exact (renderingLineDot_outputs s.cart s.ppu.scanline s.ppu.dot s.ppu.rendering s.ppu rfl).1
  · rw [ppuTick_status_below hline, if_neg hentry]

/-- Overflow after dot 65 of a visible line is what the evaluation makes of it (51 R326). -/
theorem renderingLineDot_overflow (c : Cart) {l : Int} {d : Nat} (hl : 0 ≤ l) (hd : d = 65) (r : Bool) (p : Ppu) :
    (p.renderingLineDot c l d r).status.sprOverflow = (p.evaluateSprites l).status.sprOverflow := by
  have hpixel (q : Ppu) : (q.pixelDot c l d).status.sprOverflow = q.status.sprOverflow := by
    unfold Ppu.pixelDot
    split <;> rfl
  rw [renderingLineDot_parts]
  simp only
  rw [hpixel, if_pos ⟨hl, hd⟩, if_neg (show ¬ (0 ≤ l ∧ d = 1) by omega)]
  obtain ⟨b0, b1, b2, b3, l0, l1, l2, l3, v, hbackground⟩ := backgroundDot_frame c d r p
  obtain ⟨v', a, hscroll, -⟩ := scrollDots_frame c l d r (p.backgroundDot c d r)
  generalize (p.backgroundDot c d r).scrollDots c l d r = q at hscroll ⊢
  rw [if_neg (show ¬ d = 257 by omega), hbackground] at hscroll
  have hkept : q.oam = p.oam ∧ q.ctrl = p.ctrl ∧ q.mask = p.mask ∧ q.oam2 = p.oam2
      ∧ q.sprite0InSecondary = p.sprite0InSecondary ∧ q.status = p.status := by
    rw [hscroll]
    exact ⟨rfl, rfl, rfl, rfl, rfl, rfl⟩
  obtain ⟨hoam, hctrl, hmask, hoam2, hzero, hstatus⟩ := hkept
  exact (scanOam_congr l (List.range 64) 0 q p hoam hctrl hmask hoam2 hzero (by rw [hstatus])).2

theorem ppuTick_overflow {s : State} (hlow : 0 ≤ s.ppu.scanline) (hhigh : s.ppu.scanline ≤ 239)
    (hdot : s.ppu.dot = 65) :
    (ppuTick s).ppu.status.sprOverflow = (s.ppu.evaluateSprites s.ppu.scanline).status.sprOverflow := by
  rw [ppuTick_status_line (by omega) (by omega)]
  exact renderingLineDot_overflow _ hlow hdot _ _

/-- On every other dot but that of the clear overflow stays (51 R310). -/
theorem ppuTick_overflow_stays {s : State} (h : ¬ ((0 ≤ s.ppu.scanline ∧ s.ppu.scanline ≤ 239) ∧ s.ppu.dot = 65))
    (hclear : ¬ (s.ppu.scanline = -1 ∧ s.ppu.dot = 1)) :
    (ppuTick s).ppu.status.sprOverflow = s.ppu.status.sprOverflow := by
  by_cases hline : OnRenderingLine s.ppu
  · rw [ppuTick_status_line hline hclear]
    exact (renderingLineDot_flags s.cart s.ppu.scanline s.ppu.dot s.ppu.rendering s.ppu).1 (by omega)
  · rw [ppuTick_status_below hline]
    split <;> rfl

/-- The hit flag after a dot without a pixel is raised by nothing (51 R332). -/
theorem ppuTick_hit_stays {s : State}
    (h : ¬ (0 ≤ s.ppu.scanline ∧ s.ppu.scanline ≤ 239 ∧ 1 ≤ s.ppu.dot ∧ s.ppu.dot ≤ 256))
    (hclear : ¬ (s.ppu.scanline = -1 ∧ s.ppu.dot = 1)) :
    (ppuTick s).ppu.status.spr0Hit = s.ppu.status.spr0Hit := by
  by_cases hline : OnRenderingLine s.ppu
  · obtain ⟨-, -, hhit, -⟩ :=
      renderingLineDot_outputs s.cart s.ppu.scanline s.ppu.dot s.ppu.rendering s.ppu rfl
    rw [ppuTick_status_line hline hclear]
    exact (hhit (by omega)).2
  · rw [ppuTick_status_below hline]
    split <;> rfl

/-- The hit flag after a dot with a pixel: as it was, or raised by the pixel of a PPU that draws it (51 R332). -/
theorem ppuTick_hit_pixel {s : State}
    (h : 0 ≤ s.ppu.scanline ∧ s.ppu.scanline ≤ 239 ∧ 1 ≤ s.ppu.dot ∧ s.ppu.dot ≤ 256) :
    ∃ q : Ppu, s.ppu.Draws q s.cart s.ppu.dot s.ppu.rendering
      ∧ (ppuTick s).ppu.status.spr0Hit = (s.ppu.status.spr0Hit ||
        q.spr0Hits (q.bgPixel (s.ppu.dot - 1)).1 (q.spritePixel (s.ppu.dot - 1)) (s.ppu.dot - 1) s.ppu.scanline) := by
  obtain ⟨q, hq, htick⟩ := ppuTick_draws s h
  refine ⟨q, hq, ?_⟩
  obtain ⟨-, -, hstatus, -⟩ :=
    advance_keeps ((q.renderPixel s.cart (s.ppu.dot - 1) s.ppu.scanline).updateSpriteCounters)
  rw [htick, hstatus, ← hq.hit]
  rfl

end Sys2Proof.Machine
end

section
/-! SUPPORT. The sprite pipeline's dots: what evaluation copies and what the slot fetch loads (51 R323 to R326). -/

namespace Sys2Proof.Machine

open Sys2Proof.Claims

/-- The first of the records in range is record 0, if that is among them at all: so it is among the first eight. -/
theorem contains_zero_take_filter (p : Nat → Bool) :
    (((List.range 64).filter p).take 8).contains 0 = ((List.range 64).filter p).contains 0 := by
  have hrange : List.range 64 = 0 :: List.range' 1 63 := by rw [List.range_eq_range']; rfl
  rw [hrange, List.filter_cons]
  by_cases h : p 0 = true
  · rw [if_pos h, List.take_succ_cons, List.contains_cons, List.contains_cons]
    rfl
  · have hnot : 0 ∉ (List.range' 1 63).filter p := fun hmem => by
      have := (List.mem_range'_1.1 (List.mem_of_mem_filter hmem)).1
      omega
    have hnot' : 0 ∉ ((List.range' 1 63).filter p).take 8 := fun hmem => hnot (List.mem_of_mem_take hmem)
    rw [if_neg h, List.contains_eq_mem, List.contains_eq_mem, decide_eq_false hnot, decide_eq_false hnot']

/-- The evaluation of dot 65 (51 R326, D24). -/
theorem evaluateSprites_spec (l : Int) (p : Ppu) :
    let h : Int := if p.ctrl.spr16 then 16 else 8
    let found := (List.range 64).filter fun i =>
      decide (0 ≤ l - (p.oam.read (4 * i)).toNat ∧ l - (p.oam.read (4 * i)).toNat < h)
    let q := p.evaluateSprites l
    q.oam2Count = min 8 found.length
      ∧ (∀ n j, n < q.oam2Count → j < 4 → q.oam2[4 * n + j]? = some (p.oam.read (4 * found.getD n 0 + j)))
      ∧ q.status.sprOverflow = (p.status.sprOverflow || (decide (8 < found.length) && p.rendering))
      ∧ q.sprite0InSecondary = (p.sprite0InSecondary || found.contains 0) := by
  intro h found q
  have hfound : ((List.range 64).filter fun i => p.inRange l i) = found := by
    apply List.filter_congr
    intro i _
    exact (Bool.decide_and _ _).symm
  obtain ⟨hcount, hrecords, hoverflow, hzero⟩ := scanOam_spec l (List.range 64) 0 p (Nat.zero_le 8)
  rw [hfound, Nat.zero_add] at hcount hoverflow
  rw [hfound, ← hfound, contains_zero_take_filter, hfound] at hzero
  refine ⟨hcount, fun n j hn hj => ?_, hoverflow, hzero⟩
  have hlt : n < found.length ∧ n < 8 := by
    have hmin : n < min 8 found.length := hcount ▸ hn
    omega
  rw [hfound] at hrecords
  exact (hrecords n j hlt.2 hj).trans (if_pos ⟨Nat.zero_le n, by omega⟩)

/-- An 8×16 sprite's tile number without its bank bit (51 R324). -/
theorem toNat_and_FE (tile : Byte) : (tile &&& 0xFE).toNat = 2 * (tile.toNat / 2) := by
  have hbits : tile &&& 0xFE = tile.extractLsb' 1 7 ++ 0#1 := by
    apply BitVec.eq_of_getLsbD_eq
    intro i hi
    simp only [BitVec.getLsbD_append, BitVec.getLsbD_extractLsb']
    interval_cases i <;> simp
  have ht := tile.isLt
  rw [hbits, toNat_append_eq, BitVec.extractLsb'_toNat, Nat.shiftRight_eq_div_pow]
  simp
  omega

/-- The pattern address of a sprite's row (51 R324, log 19). -/
theorem spritePatternAddr_eq (p : Ppu) (tile : Byte) (row : Int) :
    p.spritePatternAddr tile row = spriteRowAddr p tile row := by
  unfold Ppu.spritePatternAddr spriteRowAddr
  cases p.ctrl.spr16
  · rfl
  · rw [if_neg (by decide), if_pos rfl]
    simp only [toNat_and_FE]
    split <;> rfl

theorem getLsbD_reverse8 (v : Byte) {i : Nat} (h : i < 8) : (reverse8 v).getLsbD i = v.getLsbD (7 - i) := by
  rw [reverse8, BitVec.getLsbD_reverse, BitVec.getMsbD_eq_getLsbD, decide_eq_true h, Bool.true_and]

/-- A slot as dot 257 loads it for the next line (51 R323). -/
theorem fetchSlot_fetches (c : Cart) (p : Ppu) (k : Nat) :
    FetchesSlot c p k (p.fetchSlot c p.scanline k) := by
  unfold FetchesSlot Ppu.fetchSlot
  by_cases h : p.scanline = -1 ∨ p.oam2Count ≤ k
  · simp only [if_pos h]
    rfl
  · simp only [if_neg h, spritePatternAddr_eq]
    by_cases hmirror : (p.oam2Byte k 2).getLsbD 6 = true
    · rw [if_pos hmirror]
      refine ⟨rfl, rfl, fun i hi => ?_⟩
      have hcolumn : ((p.oam2.getD (4 * k + 2) 0xFF).getLsbD 6) = true := hmirror
      rw [if_pos hcolumn]
      exact ⟨getLsbD_reverse8 _ hi, getLsbD_reverse8 _ hi⟩
    · rw [if_neg hmirror]
      refine ⟨rfl, rfl, fun i hi => ?_⟩
      have hcolumn : ¬ ((p.oam2.getD (4 * k + 2) 0xFF).getLsbD 6) = true := hmirror
      rw [if_neg hcolumn]
      exact ⟨rfl, rfl⟩

/-- The eight slots that dot 257 of a rendering line loads (51 R323). -/
theorem spriteFetch_slots (c : Cart) (l : Int) (p : Ppu) {k : Nat} (hk : k < 8) :
    (p.spriteFetch c l).slots[k]? = some (p.fetchSlot c l k) := by
  interval_cases k <;> rfl

/-- One count of a slot (51 R330). -/
theorem SpriteSlot.tick_eq (slot : SpriteSlot) :
    slot.tick =
      if slot.x = 0 then
        { slot with lo := BitVec.ofNat 8 (2 * slot.lo.toNat), hi := BitVec.ofNat 8 (2 * slot.hi.toNat) }
      else { slot with x := slot.x - 1 } := by
  have hdouble (b : Byte) : b <<< 1 = BitVec.ofNat 8 (2 * b.toNat) := by
    apply BitVec.eq_of_toNat_eq
    rw [BitVec.toNat_shiftLeft, BitVec.toNat_ofNat, Nat.shiftLeft_eq]
    omega
  rw [SpriteSlot.tick, hdouble, hdouble]
  by_cases h : slot.x = 0
  · rw [if_neg (not_not_intro h), if_pos h]
  · rw [if_pos h, if_neg h]

end Sys2Proof.Machine
end

section
/-! SUPPORT. The pixel of a dot: the background's colour, the first coloured slot, the palette entry, and the colour
(51 R329 to R334). -/

namespace Sys2Proof.Machine

open Sys2Proof.Claims

theorem toNat_twoBits (hi lo : Bool) : (twoBits hi lo).toNat = 2 * num hi + num lo := by
  cases hi <;> cases lo <;> rfl

theorem SpriteSlot.toNat_pixel (slot : SpriteSlot) : slot.pixel.toNat = slotColour slot := toNat_twoBits _ _

theorem SpriteSlot.pixel_eq_zero_iff (slot : SpriteSlot) : slot.pixel = 0 ↔ slotColour slot = 0 := by
  rw [← slot.toNat_pixel]
  exact BitVec.toNat_inj.symm

/-- The background's pixel as numbers (51 R329). -/
theorem bgPixel_toNat (p : Ppu) (x : Nat) :
    ((p.bgPixel x).1.toNat, (p.bgPixel x).2.toNat) = backgroundAt p x := by
  have hshown : (p.mask.showBg && (decide (8 ≤ x) || p.mask.showBgLeft)) = true ↔
      p.mask.showBg = true ∧ (8 ≤ x ∨ p.mask.showBgLeft = true) := by
    rw [Bool.and_eq_true, Bool.or_eq_true, decide_eq_true_eq]
  unfold Ppu.bgPixel backgroundAt
  by_cases h : p.mask.showBg = true ∧ (8 ≤ x ∨ p.mask.showBgLeft = true)
  · simp only [if_pos h, if_pos (hshown.2 h), toNat_twoBits]
  · simp only [if_neg h, if_neg (mt hshown.1 h)]
    rfl

/-- The background's pixel depends on its registers, on PPUMASK and on fine X. -/
theorem backgroundAt_congr {p q : Ppu} (hbg : p.bgPart = q.bgPart) (hmask : p.mask = q.mask) (hx : p.x = q.x) (x : Nat) :
    backgroundAt p x = backgroundAt q x := by
  simp only [Ppu.bgPart, Prod.mk.injEq] at hbg
  obtain ⟨⟨hPatLo, hPatHi, hAttrLo, hAttrHi⟩, -⟩ := hbg
  simp only [backgroundAt, hPatLo, hPatHi, hAttrLo, hAttrHi, hmask, hx]

/-- What slot `k` shows where it wins the pixel (51 R330). -/
def SpriteSlot.shows (slot : SpriteSlot) (sprite0 : Bool) : SpritePixel :=
  ⟨slot.pixel, slot.attr.extractLsb' 0 2, slot.attr.getLsbD 5, sprite0⟩

/-- The first coloured slot of a list, searched by its number (51 R330). -/
theorem firstSprite_eq (inScanline : Bool) (n : Nat) (slots : List SpriteSlot) :
    firstSprite inScanline n slots =
      ((List.range slots.length).find? fun k =>
        decide ((slots.getD k .transparent).x = 0 ∧ slotColour (slots.getD k .transparent) ≠ 0)).elim SpritePixel.none
          fun k => (slots.getD k .transparent).shows (n + k == 0 && inScanline) := by
  induction slots generalizing n with
  | nil => rfl
  | cons slot rest ih =>
    have hcoloured : slot.x = 0 ∧ slot.pixel ≠ 0 ↔ slot.x = 0 ∧ slotColour slot ≠ 0 :=
      and_congr_right' (not_congr slot.pixel_eq_zero_iff)
    rw [firstSprite, List.length_cons, List.range_succ_eq_map, List.find?_cons]
    by_cases h : slot.x = 0 ∧ slotColour slot ≠ 0
    · rw [if_pos (hcoloured.2 h), List.getD_cons_zero, decide_eq_true h]
      rfl
    · rw [if_neg (mt hcoloured.1 h), List.getD_cons_zero, decide_eq_false h, ih, List.find?_map]
      simp only [Function.comp_def, List.getD_cons_succ]
      cases List.find? _ (List.range rest.length) with
      | none => rfl
      | some k => simp [Nat.add_right_comm, ← Nat.add_assoc]

/-- The sprite's pixel: the slot that wins the column, if one does (51 R330). -/
theorem spritePixel_eq (p : Ppu) (x : Nat) :
    p.spritePixel x =
      (spriteAt p x).elim SpritePixel.none fun k => (slotOf p k).shows (k == 0 && p.sprite0InScanline) := by
  have hshown : (p.mask.showSpr && (decide (8 ≤ x) || p.mask.showSprLeft)) = true ↔
      p.mask.showSpr = true ∧ (8 ≤ x ∨ p.mask.showSprLeft = true) := by
    rw [Bool.and_eq_true, Bool.or_eq_true, decide_eq_true_eq]
  unfold Ppu.spritePixel spriteAt
  by_cases h : p.mask.showSpr = true ∧ (8 ≤ x ∨ p.mask.showSprLeft = true)
  · rw [if_pos (hshown.2 h), if_pos h, firstSprite_eq, Vector.length_toList]
    simp only [Nat.zero_add]
    rfl
  · rw [if_neg (mt hshown.1 h), if_neg h]
    rfl

theorem spritePixel_congr {p q : Ppu} (hslots : p.slotPart = q.slotPart) (hmask : p.mask = q.mask) (x : Nat) :
    p.spritePixel x = q.spritePixel x := by
  simp only [Ppu.slotPart, Prod.mk.injEq] at hslots
  obtain ⟨hslots, hzero⟩ := hslots
  simp only [Ppu.spritePixel, hslots, hzero, hmask]

/-- The slot that wins a column shows there, and has a colour (51 R330). -/
theorem spriteAt_some {p : Ppu} {x k : Nat} (h : spriteAt p x = some k) :
    (p.mask.showSpr = true ∧ (8 ≤ x ∨ p.mask.showSprLeft = true)) ∧ slotColour (slotOf p k) ≠ 0 := by
  unfold spriteAt at h
  split at h
  case isTrue hshown =>
    have hfound := List.find?_some h
    rw [decide_eq_true_eq] at hfound
    exact ⟨hshown, hfound.2⟩
  case isFalse => cases h

theorem backgroundAt_ne_zero {p : Ppu} {x : Nat} (h : (backgroundAt p x).1 ≠ 0) :
    p.mask.showBg = true ∧ (8 ≤ x ∨ p.mask.showBgLeft = true) := by
  by_contra hhidden
  rw [backgroundAt, if_neg hhidden] at h
  exact h rfl

/-- The palette entry where no slot wins: the background's, or the backdrop's (51 R331). -/
theorem pixelAddr_background (bgPix bgPal : BitVec 2) :
    pixelAddr bgPix bgPal SpritePixel.none =
      BitVec.ofNat 16 (0x3F00 + entryOf (bgPix.toNat, bgPal.toNat) none) := by
  revert bgPix bgPal
  decide

/-- The palette entry where a slot wins (51 R331). -/
theorem pixelAddr_sprite (bgPix bgPal : BitVec 2) {slot : SpriteSlot} (sprite0 : Bool) (h : slotColour slot ≠ 0) :
    pixelAddr bgPix bgPal (slot.shows sprite0) =
      BitVec.ofNat 16 (0x3F00 + entryOf (bgPix.toNat, bgPal.toNat) (some slot)) := by
  have hpix : slot.pixel ≠ 0 := mt slot.pixel_eq_zero_iff.1 h
  have hzero : bgPix = 0 ↔ bgPix.toNat = 0 := BitVec.toNat_inj.symm
  have hbg : (0x3F00 : Addr) + 4 * bgPal.zeroExtend 16 + bgPix.zeroExtend 16 =
      BitVec.ofNat 16 (0x3F00 + (4 * bgPal.toNat + bgPix.toNat)) := by
    revert bgPix bgPal
    decide
  have hsprite : (0x3F10 : Addr) + 4 * (slot.attr.extractLsb' 0 2).zeroExtend 16 + slot.pixel.zeroExtend 16 =
      BitVec.ofNat 16 (0x3F00 + (16 + 4 * (slot.attr.toNat % 4) + slotColour slot)) := by
    have hpal : (slot.attr.extractLsb' 0 2).toNat = slot.attr.toNat % 4 := BitVec.extractLsb'_toNat _ _ _
    rw [← slot.toNat_pixel, ← hpal]
    generalize slot.attr.extractLsb' 0 2 = pal
    generalize slot.pixel = pix
    revert pal pix
    decide
  unfold pixelAddr entryOf SpriteSlot.shows
  simp only [hpix, and_false, if_false, hbg, hsprite]
  by_cases hb : bgPix = 0
  · rw [if_pos hb, if_neg fun h => h.1 (hzero.1 hb)]
  · rw [if_neg hb]
    cases slot.attr.getLsbD 5
    · rw [if_neg (by decide), if_neg fun h => absurd h.2 (by decide)]
    · rw [if_pos rfl, if_pos ⟨mt hzero.2 hb, rfl⟩]

/-- A palette byte's colour (51 R333, R334). -/
theorem toNat_argb (c : Cart) (p : Ppu) (a : Addr) :
    (argb p.mask.emphasis (p.colour c a)).toNat = argbOf p.mask (ppuBusRead c p a) := by
  have hindex : (ppuBusRead c p a).extractLsb' 0 6 = BitVec.ofNat 6 (ppuBusRead c p a).toNat :=
    BitVec.eq_of_toNat_eq (BitVec.extractLsb'_toNat _ _ _)
  simp only [argb, Ppu.colour, argbOf, toNat_append_eq, hindex]
  simp
  omega

theorem ppuBusRead_congr {p q : Ppu} (c : Cart) (a : Addr) (hnt : p.nt = q.nt) (hpal : p.pal = q.pal) :
    ppuBusRead c p a = ppuBusRead c q a := by
  simp only [ppuBusRead, hnt, hpal]

/-- The address of a pixel's palette entry (51 R331). -/
theorem pixelAddr_eq (p : Ppu) (x : Nat) (bgPix bgPal : BitVec 2) :
    pixelAddr bgPix bgPal (p.spritePixel x) =
      BitVec.ofNat 16 (0x3F00 + entryOf (bgPix.toNat, bgPal.toNat) ((spriteAt p x).map (slotOf p))) := by
  rw [spritePixel_eq]
  cases h : spriteAt p x with
  | none => exact pixelAddr_background bgPix bgPal
  | some k => exact pixelAddr_sprite bgPix bgPal _ (spriteAt_some h).2

end Sys2Proof.Machine
end

section
/-! SUPPORT. What one dot does to the frame buffer, and the pixel it draws (51 R328 to R334). -/

namespace Sys2Proof.Machine

open Sys2Proof.Claims

/-- A dot without a pixel leaves the frame buffer (51 R310). -/
theorem ppuTick_frameOut_stays {s : State}
    (h : ¬ (0 ≤ s.ppu.scanline ∧ s.ppu.scanline ≤ 239 ∧ 1 ≤ s.ppu.dot ∧ s.ppu.dot ≤ 256)) :
    (ppuTick s).ppu.frameOut = s.ppu.frameOut := by
  have hvblank (q : Ppu) : (if s.ppu.scanline = 241 ∧ s.ppu.dot = 1 then
      { q with status := { q.status with vblank := true } } else q).frameOut = q.frameOut := by
    split <;> rfl
  have hline (q : Ppu) (hq : s.ppu.rendering = q.rendering) :
      (if OnRenderingLine s.ppu then q.renderingLineDot s.cart s.ppu.scanline s.ppu.dot s.ppu.rendering
        else q).frameOut = q.frameOut := by
    obtain ⟨-, -, hframe, -⟩ := renderingLineDot_outputs s.cart s.ppu.scanline s.ppu.dot s.ppu.rendering q hq
    split
    case isTrue hon => exact (hframe (by omega)).1
    case isFalse => rfl
  obtain ⟨-, -, -, hadvance, -⟩ := advance_keeps (s.ppu.dotActions s.cart)
  show (s.ppu.dotActions s.cart).advance.frameOut = _
  rw [hadvance]
  refine (hvblank _).trans ((hline _ ?_).trans ?_)
  all_goals split <;> rfl

/-- The pixel of a visible dot: of all pixels it alone is written, and rendering_sprite0 with it (51 R328, R330). -/
theorem ppuTick_pixel {s : State}
    (h : 0 ≤ s.ppu.scanline ∧ s.ppu.scanline ≤ 239 ∧ 1 ≤ s.ppu.dot ∧ s.ppu.dot ≤ 256) :
    let x := s.ppu.dot - 1
    ∃ q : Ppu, s.ppu.Draws q s.cart s.ppu.dot s.ppu.rendering
      ∧ (ppuTick s).ppu.renderingSprite0 = (q.spritePixel x).sprite0
      ∧ (ppuTick s).ppu.frameOut = FrameBuffer.write s.ppu.frameOut s.ppu.scanline.toNat x
          (argb q.mask.emphasis
            (q.colour s.cart (pixelAddr (q.bgPixel x).1 (q.bgPixel x).2 (q.spritePixel x)))) := by
  intro x
  obtain ⟨q, hq, htick⟩ := ppuTick_draws s h
  have hadvance (p : Ppu) : p.advance.renderingSprite0 = p.renderingSprite0 := by
    rw [advance_eq]
    split
    · split <;> rfl
    · rfl
  obtain ⟨-, -, -, hframe, -⟩ := advance_keeps ((q.renderPixel s.cart x s.ppu.scanline).updateSpriteCounters)
  refine ⟨q, hq, ?_, ?_⟩
  · rw [htick, hadvance]
    rfl
  · rw [htick, hframe, ← hq.frame]
    rfl

/-- The background that a dot draws is the one in the registers it leaves (51 R329, D22). -/
theorem Ppu.Draws.backgroundAt_eq {s : State} {q : Ppu} (hq : s.ppu.Draws q s.cart s.ppu.dot s.ppu.rendering)
    (hline : OnRenderingLine s.ppu) (x : Nat) : backgroundAt q x = backgroundAt (ppuTick s).ppu x := by
  obtain ⟨-, -, -, -, hx, -, -, hmask, -⟩ := ppuTick_keeps s
  have hbg : (ppuTick s).ppu.bgPart = (s.ppu.backgroundDot s.cart s.ppu.dot s.ppu.rendering).bgPart := by
    rw [ppuTick_bgPart, if_pos hline]
  exact backgroundAt_congr (hq.bg.trans hbg.symm) (hq.mask.trans hmask.symm) (hq.x.trans hx.symm) x

/-- Sprite 0 shows where slot 0 wins with sprite 0 in it (51 R330). -/
theorem spritePixel_sprite0 (p : Ppu) (x : Nat) :
    (p.spritePixel x).sprite0 = (decide (spriteAt p x = some 0) && p.sprite0InScanline) := by
  rw [spritePixel_eq]
  cases spriteAt p x with
  | none => rfl
  | some n => cases n <;> rfl

/-- The hit flag of a visible dot (51 R332, D25). -/
theorem Ppu.Draws.spr0Hits_eq {p q : Ppu} {c : Cart} {d : Nat} {r : Bool} (hq : p.Draws q c d r) (x : Nat) (l : Int) :
    q.spr0Hits (q.bgPixel x).1 (q.spritePixel x) x l =
      (decide ((backgroundAt q x).1 ≠ 0 ∧ spriteAt p x = some 0 ∧ x ≠ 255 ∧ l ≠ 0) && p.sprite0InScanline) := by
  have hbg : (q.bgPixel x).1 ≠ 0 ↔ (backgroundAt q x).1 ≠ 0 := by
    rw [← bgPixel_toNat, ne_eq, ← BitVec.toNat_inj]
    rfl
  rw [spritePixel_congr hq.slots hq.mask, spritePixel_eq, Bool.eq_iff_iff]
  simp only [Ppu.spr0Hits, Bool.and_eq_true, decide_eq_true_eq, hbg, hq.mask]
  constructor
  · rintro ⟨⟨⟨⟨⟨⟨hb, hpix⟩, hzero⟩, -⟩, -⟩, hx⟩, hl⟩
    cases hk : spriteAt p x with
    | none =>
      rw [hk] at hpix
      exact absurd rfl hpix
    | some k =>
      rw [hk] at hzero
      obtain ⟨hk0, hin⟩ := Bool.and_eq_true_iff.1 hzero
      exact ⟨⟨hb, congrArg some (beq_iff_eq.1 hk0), hx, hl⟩, hin⟩
  · rintro ⟨⟨hb, hk, hx, hl⟩, hin⟩
    obtain ⟨⟨hspr, -⟩, hcolour⟩ := spriteAt_some hk
    have hshowBg := (backgroundAt_ne_zero hb).1
    rw [hq.mask] at hshowBg
    rw [hk]
    exact ⟨⟨⟨⟨⟨⟨hb, mt (SpriteSlot.pixel_eq_zero_iff _).1 hcolour⟩, hin⟩, hshowBg⟩, hspr⟩, hx⟩, hl⟩

end Sys2Proof.Machine
end

section
/-! The family of file 51: the sprites, the pixel, and the status flags. -/

namespace Sys2Proof.Machine

open Sys2Proof.Claims

/-- Settles O50: a dot that raises the flag has a pixel, whose hit test names the conditions. -/
theorem spriteZeroHitExclusions : Obligations.SpriteZeroHitExclusions := by
  intro s hbefore hafter
  by_cases h : 0 ≤ s.ppu.scanline ∧ s.ppu.scanline ≤ 239 ∧ 1 ≤ s.ppu.dot ∧ s.ppu.dot ≤ 256
  · obtain ⟨q, hq, hhit⟩ := ppuTick_hit_pixel h
    rw [hafter, hbefore, Bool.false_or, hq.spr0Hits_eq] at hhit
    obtain ⟨hall, -⟩ := Bool.and_eq_true_iff.1 hhit.symm
    obtain ⟨hb, hk, hx, hl⟩ := of_decide_eq_true hall
    obtain ⟨hbg, hbgLeft⟩ := backgroundAt_ne_zero hb
    obtain ⟨⟨hspr, hsprLeft⟩, -⟩ := spriteAt_some hk
    rw [hq.mask] at hbg hbgLeft
    refine ⟨by omega, h.2.1, h.2.2.1, by omega, hbg, hspr, fun hleft => ?_⟩
    have hclipped : ¬ 8 ≤ s.ppu.dot - 1 := by omega
    exact ⟨hbgLeft.resolve_left hclipped, hsprLeft.resolve_left hclipped⟩
  · by_cases hclear : s.ppu.scanline = -1 ∧ s.ppu.dot = 1
    · rw [ppuTick_status_clear hclear.1 hclear.2] at hafter
      cases hafter
    · rw [ppuTick_hit_stays h hclear, hbefore] at hafter
      cases hafter

/-- Settles O48: every increment and copy of v, OAMADDR's reset and overflow ask for rendering, and a hit for both layers. -/
theorem renderingOffFreezesTheScroll : Obligations.RenderingOffFreezesTheScroll := by
  intro s hbg hspr t
  have hoff : s.ppu.rendering = false := by rw [Ppu.rendering, hbg, hspr]; rfl
  refine ⟨?v, ?oamaddr, fun hafter => ?overflow, fun hafter => ?hit⟩
  case v =>
    show (ppuTick s).ppu.v = _
    rw [ppuTick_v, renderingLineDot_v, hoff]
    simp
  case oamaddr =>
    show (ppuTick s).ppu.oamaddr = _
    rw [ppuTick_oamaddr, hoff]
    simp
  case overflow =>
    by_cases h65 : (0 ≤ s.ppu.scanline ∧ s.ppu.scanline ≤ 239) ∧ s.ppu.dot = 65
    · obtain ⟨⟨hlow, hhigh⟩, hdot⟩ := h65
      obtain ⟨-, -, hoverflow, -⟩ := evaluateSprites_spec s.ppu.scanline s.ppu
      rw [← ppuTick_overflow hlow hhigh hdot, hoff, Bool.and_false, Bool.or_false] at hoverflow
      exact hoverflow.symm.trans hafter
    · exact (ppuTick_flags s).1 h65 hafter
  case hit =>
    by_contra hbefore
    obtain ⟨-, -, -, -, hshow, -⟩ := spriteZeroHitExclusions s (Bool.eq_false_of_not_eq_true hbefore) hafter
    rw [hbg] at hshow
    cases hshow

/-- Settles O49: secondary OAM, the slots and OAMADDR, each by its equation for one dot. -/
theorem spriteEvaluation : Obligations.SpriteEvaluation := by
  intro s p t visible on
  have heval := ppuTick_evalPart s
  have hslots := ppuTick_slotPart s
  refine ⟨fun hvisible hdot => ?clear, fun hvisible hdot => ?evaluate, fun hline hdot => ?fetch,
    fun hvisible hlow hhigh => ?count, fun hcount hfetch => ?slotsStay, fun hfetch => ?zeroStays,
    fun hstays => ?evalStays, ?oamaddr⟩
  case clear =>
    rw [if_pos ⟨hvisible.1, hvisible.2, hdot⟩] at heval
    simpa only [Ppu.evalPart, Prod.mk.injEq] using heval
  case evaluate =>
    have hne : ¬ (0 ≤ p.scanline ∧ p.scanline ≤ 239 ∧ p.dot = 1) := by omega
    rw [if_neg hne, if_pos ⟨hvisible.1, hvisible.2, hdot⟩] at heval
    simp only [Ppu.evalPart, Prod.mk.injEq] at heval
    obtain ⟨hoam2, hcount, hzero⟩ := heval
    intro h found
    obtain ⟨hfound, hcopied, hninth, hnoted⟩ := evaluateSprites_spec p.scanline p
    refine ⟨hcount.trans hfound, fun n j hn hj => ?_,
      (ppuTick_overflow hvisible.1 hvisible.2 hdot).trans hninth, hzero.trans hnoted⟩
    exact (congrArg (·[4 * n + j]?) hoam2).trans (hcopied n j (hn.trans_eq hcount) hj)
  case fetch =>
    have hpixel : ¬ (0 ≤ p.scanline ∧ p.scanline ≤ 239 ∧ 1 ≤ p.dot ∧ p.dot ≤ 256) := by omega
    rw [if_neg hpixel, if_pos ⟨hline.1, hline.2, hdot⟩] at hslots
    simp only [Ppu.slotPart, Prod.mk.injEq] at hslots
    obtain ⟨hload, hzero⟩ := hslots
    refine ⟨fun k hk => ⟨p.fetchSlot s.cart p.scanline k, ?_, fetchSlot_fetches s.cart p k⟩, hzero⟩
    exact (congrArg (·[k]?) hload).trans (spriteFetch_slots s.cart p.scanline p hk)
  case count =>
    rw [if_pos ⟨hvisible.1, hvisible.2, hlow, hhigh⟩] at hslots
    have htick : SpriteSlot.tick = fun slot : SpriteSlot =>
        if slot.x = 0 then
          { slot with lo := BitVec.ofNat 8 (2 * slot.lo.toNat), hi := BitVec.ofNat 8 (2 * slot.hi.toNat) }
        else { slot with x := slot.x - 1 } := funext SpriteSlot.tick_eq
    rw [← htick]
    exact congrArg Prod.fst hslots
  case slotsStay =>
    rw [if_neg fun h => hcount ⟨⟨h.1, h.2.1⟩, h.2.2⟩, if_neg fun h => hfetch ⟨⟨h.1, h.2.1⟩, h.2.2⟩] at hslots
    exact congrArg Prod.fst hslots
  case zeroStays =>
    by_cases hpixel : 0 ≤ p.scanline ∧ p.scanline ≤ 239 ∧ 1 ≤ p.dot ∧ p.dot ≤ 256
    · rw [if_pos hpixel] at hslots
      exact congrArg Prod.snd hslots
    · rw [if_neg hpixel, if_neg fun h => hfetch ⟨⟨h.1, h.2.1⟩, h.2.2⟩] at hslots
      exact congrArg Prod.snd hslots
  case evalStays =>
    rw [if_neg fun h => hstays ⟨⟨h.1, h.2.1⟩, .inl h.2.2⟩, if_neg fun h => hstays ⟨⟨h.1, h.2.1⟩, .inr h.2.2⟩] at heval
    simpa only [Ppu.evalPart, Prod.mk.injEq] using heval
  case oamaddr =>
    refine (ppuTick_oamaddr s).trans (if_congr ?_ rfl rfl)
    rw [← and_assoc]
    exact Iff.rfl

/-- Settles O51: the pixel of a visible dot, in its colour, with its hit; no other dot draws. -/
theorem onePixelForEachVisibleDot : Obligations.OnePixelForEachVisibleDot := by
  intro s p f t
  split
  case isFalse h => exact ⟨ppuTick_frameOut_stays h, (ppuTick_flags s).2 h⟩
  case isTrue h =>
    intro x bg k entry
    have hline : OnRenderingLine p := by omega
    obtain ⟨q, hq, hzero, hframe⟩ := ppuTick_pixel h
    obtain ⟨q', hq', hhit⟩ := ppuTick_hit_pixel h
    have hwritten (y z : Nat) : FrameBuffer.written t.frameOut y z = _ :=
      (congrArg (FrameBuffer.written · y z) hframe).trans (FrameBuffer.written_write _ _ _ _ _ _)
    refine ⟨?colour, fun y z hne => ?others, ?sprite0, ?hit⟩
    case colour =>
      have hentry : entryOf ((q.bgPixel x).1.toNat, (q.bgPixel x).2.toNat) (k.map (slotOf p)) = entry := by
        rw [bgPixel_toNat, hq.backgroundAt_eq hline]
      show (FrameBuffer.pixel t.frameOut _ _).toNat = _
      rw [FrameBuffer.pixel, hwritten, if_pos ⟨rfl, rfl⟩, Option.getD_some, toNat_argb,
        spritePixel_congr hq.slots hq.mask, pixelAddr_eq, hentry, hq.mask, ppuBusRead_congr _ _ hq.nt hq.pal]
    case others =>
      show FrameBuffer.pixel t.frameOut y z = _
      rw [FrameBuffer.pixel, hwritten, if_neg hne]
      rfl
    case sprite0 =>
      refine hzero.trans ?_
      rw [spritePixel_congr hq.slots hq.mask, spritePixel_sprite0]
    case hit =>
      rw [hq'.spr0Hits_eq, hq'.backgroundAt_eq hline] at hhit
      exact hhit

/-- Settles O52: the tick's equation, its frame, and where each status flag is raised and cleared. -/
theorem vblankAndNmiLine : Obligations.VblankAndNmiLine := by
  intro s p t entry clear visible
  have hatVblank : s.ppu.atVblank = decide entry := (Bool.decide_and _ _).symm
  have hassoc : 0 ≤ p.scanline ∧ p.scanline ≤ 239 ∧ 1 ≤ p.dot ∧ p.dot ≤ 256 ↔ visible ∧ 1 ≤ p.dot ∧ p.dot ≤ 256 :=
    and_assoc.symm
  refine ⟨rfl, rfl, rfl, rfl, ?cpu, fun ⟨hline, hdot⟩ => ?sets, fun ⟨hline, hdot⟩ => ?clears,
    fun hentry hclear => ?vblank, fun hclear => ⟨fun hbefore => ?overflowStays, fun hbefore => ?hitStays⟩,
    fun h65 hafter => ?overflow, fun hpixel hafter => ?hit, ppuTick_keeps s⟩
  case cpu =>
    rw [← hatVblank]
    rfl
  case sets =>
    have hbelow : ¬ OnRenderingLine s.ppu := fun h => absurd (hline ▸ h.2) (by decide)
    show (ppuTick s).ppu.status.vblank = true
    rw [ppuTick_status_below hbelow, if_pos ⟨hline, hdot⟩]
  case clears => exact ppuTick_status_clear hline hdot
  case vblank => exact ppuTick_vblank_stays hentry hclear
  case overflowStays =>
    by_cases h65 : visible ∧ p.dot = 65
    · obtain ⟨-, -, hoverflow, -⟩ := evaluateSprites_spec p.scanline p
      rw [hbefore, Bool.true_or] at hoverflow
      exact (ppuTick_overflow h65.1.1 h65.1.2 h65.2).trans hoverflow
    · exact (ppuTick_overflow_stays h65 hclear).trans hbefore
  case hitStays =>
    by_cases hpixel : visible ∧ 1 ≤ p.dot ∧ p.dot ≤ 256
    · obtain ⟨q, -, hhit⟩ := ppuTick_hit_pixel (hassoc.2 hpixel)
      refine hhit.trans ?_
      rw [hbefore, Bool.true_or]
    · exact (ppuTick_hit_stays (mt hassoc.1 hpixel) hclear).trans hbefore
  case overflow => exact (ppuTick_flags s).1 h65 hafter
  case hit =>
    by_cases hclear : clear
    · rw [ppuTick_status_clear hclear.1 hclear.2] at hafter
      cases hafter
    · exact (ppuTick_hit_stays (mt hassoc.1 hpixel) hclear).symm.trans hafter

end Sys2Proof.Machine
end

section
/-! SUPPORT. The PPU's place in its frame, counted in dots from dot 0 of line -1, and where one dot takes it (51 R336 to R338). -/

namespace Sys2Proof.Machine

open Sys2Proof.Claims

/-- Line and dot in their ranges (10 R36). -/
def Ppu.InFrame (p : Ppu) : Prop := -1 ≤ p.scanline ∧ p.scanline ≤ 260 ∧ p.dot ≤ 340

/-- The number of the PPU's place in its frame. -/
def Ppu.place (p : Ppu) : Int := 341 * (p.scanline + 1) + p.dot

/-- The dot after which an odd frame with rendering enabled passes one over (51 R336, D32). -/
def Ppu.Skips (p : Ppu) : Prop := p.scanline = -1 ∧ p.dot = 339 ∧ p.frame % 2 = 1 ∧ p.rendering = true

theorem Ppu.InFrame.place_le {p : Ppu} (h : p.InFrame) : p.place ≤ 89341 := by
  obtain ⟨-, hline, hdot⟩ := h
  rw [Ppu.place]
  omega

theorem Ppu.InFrame.place_eq_339 {p : Ppu} (h : p.InFrame) : p.place = 339 ↔ p.scanline = -1 ∧ p.dot = 339 := by
  obtain ⟨hline, -, hdot⟩ := h
  rw [Ppu.place]
  omega

theorem Ppu.endOfLine_iff (p : Ppu) : p.endOfLine = true ↔ p.dot = 340 ∨ p.Skips := by
  simp only [Ppu.endOfLine, Ppu.Skips, Bool.or_eq_true, Bool.and_eq_true, beq_iff_eq, decide_eq_true_eq]
  exact or_congr_right ⟨fun ⟨⟨⟨hdot, hline⟩, hodd⟩, hon⟩ => ⟨hline, hdot, hodd, hon⟩,
    fun ⟨hline, hdot, hodd, hon⟩ => ⟨⟨⟨hdot, hline⟩, hodd⟩, hon⟩⟩

theorem ppuTick_rendering (s : State) : (ppuTick s).ppu.rendering = s.ppu.rendering := by
  obtain ⟨-, -, -, -, -, -, -, hmask, -⟩ := ppuTick_keeps s
  rw [Ppu.rendering, Ppu.rendering, hmask]

/-- The last dot of a frame leads to the first of the next (51 R337, R338). -/
theorem ppuTick_lastDot {s : State} (h : s.ppu.place = 89341) (hin : s.ppu.InFrame) :
    (ppuTick s).ppu.position = (-1, 0, s.ppu.frame + 1, true) := by
  obtain ⟨-, hline, hdot⟩ := hin
  rw [Ppu.place] at h
  rw [ppuTick_position, if_pos (s.ppu.endOfLine_iff.2 (.inl (by omega))), if_pos (by omega)]

/-- Every other dot leads to the next place, or passes one over (51 R336). -/
theorem ppuTick_withinFrame {s : State} (hin : s.ppu.InFrame) (h : s.ppu.place ≠ 89341) :
    (ppuTick s).ppu.InFrame
      ∧ (s.ppu.Skips → (ppuTick s).ppu.place = s.ppu.place + 2)
      ∧ (¬ s.ppu.Skips → (ppuTick s).ppu.place = s.ppu.place + 1)
      ∧ (ppuTick s).ppu.frame = s.ppu.frame ∧ (ppuTick s).ppu.frameReady = s.ppu.frameReady := by
  have hnext := ppuTick_position s
  obtain ⟨hlow, hline, hdot⟩ := hin
  unfold Ppu.place at h ⊢
  unfold Ppu.InFrame
  by_cases hend : s.ppu.endOfLine = true
  · have h260 : s.ppu.scanline ≠ 260 := fun h260 => by
      rcases s.ppu.endOfLine_iff.1 hend with h340 | ⟨hskip, -⟩ <;> omega
    rw [if_pos hend, if_neg h260] at hnext
    simp only [Ppu.position, Prod.mk.injEq] at hnext
    obtain ⟨hline', hdot', hframe, hready⟩ := hnext
    rw [hline', hdot']
    refine ⟨by omega, fun ⟨_, hskip, _⟩ => by omega, fun hskip => ?_, hframe, hready⟩
    have h340 := (s.ppu.endOfLine_iff.1 hend).resolve_right hskip
    omega
  · rw [if_neg hend] at hnext
    simp only [Ppu.position, Prod.mk.injEq] at hnext
    obtain ⟨hline', hdot', hframe, hready⟩ := hnext
    obtain ⟨h340, hskip⟩ := not_or.1 (mt s.ppu.endOfLine_iff.2 hend)
    rw [hline', hdot']
    exact ⟨by omega, fun h => absurd h hskip, fun _ => by push_cast; omega, hframe, hready⟩

theorem dots_succ (n : Nat) (s : State) : dots (n + 1) s = ppuTick (dots n s) := by
  induction n generalizing s with
  | zero => rfl
  | succ n ih => exact ih (ppuTick s)

/-- The place after `k` dots of a frame, whose end is not yet reached: a short frame passes place 340 over (51 R336 to R338). -/
theorem dots_place {s : State} {short : Prop} [Decidable short] (hline : s.ppu.scanline = -1) (hdot : s.ppu.dot = 0)
    (hshort : short ↔ s.ppu.frame % 2 = 1 ∧ s.ppu.rendering = true) (k : Nat)
    (hk : k < if short then 89341 else 89342) :
    (dots k s).ppu.InFrame ∧ (dots k s).ppu.place = (if short ∧ 340 ≤ k then k + 1 else k : Nat)
      ∧ (dots k s).ppu.frame = s.ppu.frame ∧ (dots k s).ppu.frameReady = s.ppu.frameReady
      ∧ (dots k s).ppu.rendering = s.ppu.rendering := by
  induction k with
  | zero =>
    refine ⟨⟨?_, ?_, ?_⟩, ?_, rfl, rfl, rfl⟩
    all_goals simp [dots, hline, hdot, Ppu.place]
  | succ k ih =>
    obtain ⟨hin, hplace, hframe, hready, hon⟩ := ih (Nat.lt_of_succ_lt hk)
    have hskips : (dots k s).ppu.Skips ↔ k = 339 ∧ short := by
      rw [Ppu.Skips, hframe, hon, ← hshort, ← and_assoc, ← hin.place_eq_339, hplace]
      refine and_congr_left fun _ => ?_
      split <;> omega
    have hlast : (dots k s).ppu.place ≠ 89341 := by
      rw [hplace]
      by_cases hs : short
      · simp only [hs, if_true, true_and] at hk ⊢
        split <;> omega
      · simp only [hs, if_false, false_and] at hk ⊢
        omega
    obtain ⟨hin', hskip, hcount, hframe', hready'⟩ := ppuTick_withinFrame hin hlast
    rw [dots_succ]
    refine ⟨hin', ?_, hframe'.trans hframe, hready'.trans hready, (ppuTick_rendering _).trans hon⟩
    rw [hplace, hskips] at hskip hcount
    by_cases h339 : k = 339 ∧ short
    · rw [hskip h339, if_neg (by omega), if_pos ⟨h339.2, by omega⟩]
      push_cast
      omega
    · rw [hcount h339]
      by_cases hs : short
      · have hne : k ≠ 339 := fun h => h339 ⟨h, hs⟩
        simp only [hs, true_and]
        split <;> split <;> push_cast <;> omega
      · simp only [hs, false_and, if_false, Nat.cast_add, Nat.cast_one]

/-- After all dots of a frame the PPU is at the first dot of the next one (51 R337, R338). -/
theorem dots_frame {s : State} {short : Prop} [Decidable short] (hline : s.ppu.scanline = -1) (hdot : s.ppu.dot = 0)
    (hshort : short ↔ s.ppu.frame % 2 = 1 ∧ s.ppu.rendering = true) :
    (dots (if short then 89341 else 89342) s).ppu.position = (-1, 0, s.ppu.frame + 1, true) := by
  have hsucc : (if short then 89341 else 89342) = (if short then 89340 else 89341) + 1 := by split <;> rfl
  obtain ⟨hin, hplace, hframe, -⟩ := dots_place hline hdot hshort (if short then 89340 else 89341) (by split <;> decide)
  rw [hsucc, dots_succ, ppuTick_lastDot ?_ hin, hframe]
  rw [hplace]
  by_cases hs : short
  · simp only [hs, if_true, true_and]
    rfl
  · simp only [hs, if_false, false_and]
    rfl

end Sys2Proof.Machine
end

section
/-! SUPPORT. Steps and runs: what opens and closes a frame, and why a frame call returns (70 R396, R400). -/

namespace Sys2Proof.Machine

open Sys2Proof.Claims

theorem steps_eq (n : Nat) (s : State) : steps n s = .next (stepNext^[n] s) := by
  induction n generalizing s with
  | zero => rfl
  | succ n ih =>
    rw [steps, step_eq]
    exact ih (stepNext s)

theorem masterStep_eq (s : State) : masterStep s = .next (stepNext s) := step_eq s

theorem runTicks_eq_steps (n : Nat) (s : State) : runTicks n s = steps n s := by
  induction n generalizing s with
  | zero => rfl
  | succ n ih =>
    rw [runTicks, steps, masterStep_eq, step_eq]
    exact ih (stepNext s)

theorem untilReturn_succ (n : Nat) (s : State) :
    untilReturn (n + 1) s =
      if (stepNext s).port.betweenFrames then .next (stepNext s) else untilReturn n (stepNext s) := by
  rw [untilReturn, masterStep_eq]

theorem untilReturn_goes (n : Nat) (s : State) : ∃ t, untilReturn n s = .next t := by
  induction n generalizing s with
  | zero => exact ⟨s, rfl⟩
  | succ n ih =>
    rw [untilReturn_succ]
    split
    · exact ⟨_, rfl⟩
    · exact ih _

theorem runFrames_succ {s t : State} (h : runOneFrame s = .next t) (n : Nat) : runFrames (n + 1) s = runFrames n t := by
  rw [runFrames, h]

theorem runFrames_goes (n : Nat) (s : State) : ∃ t, runFrames n s = .next t := by
  induction n generalizing s with
  | zero => exact ⟨s, rfl⟩
  | succ n ih =>
    obtain ⟨t, ht⟩ := untilReturn_goes groupsPerFrame s
    rw [runFrames_succ ht]
    exact ih t

theorem runFrames_one (s : State) : runFrames 1 s = runOneFrame s := by
  obtain ⟨t, ht⟩ := untilReturn_goes groupsPerFrame s
  rw [runFrames_succ ht]
  exact ht.symm

/-- The steps up to the first after which the machine is between frames are a frame call. -/
theorem untilReturn_eq {k : Nat} {s : State} (hk : 1 ≤ k) (hreturn : (stepNext^[k] s).port.betweenFrames = true)
    (hfirst : ∀ j, 1 ≤ j → j < k → (stepNext^[j] s).port.betweenFrames = false) {n : Nat} (hn : k ≤ n) :
    untilReturn n s = .next (stepNext^[k] s) := by
  induction n generalizing k s with
  | zero => omega
  | succ n ih =>
    rw [untilReturn_succ]
    obtain ⟨k, rfl⟩ : ∃ m, k = m + 1 := ⟨k - 1, by omega⟩
    rcases Nat.eq_zero_or_pos k with rfl | hpos
    · have hnow : (stepNext s).port.betweenFrames = true := hreturn
      exact if_pos hnow
    · have hnot : (stepNext s).port.betweenFrames = false := hfirst 1 (Nat.le_refl 1) (by omega)
      rw [if_neg (ne_true_of_eq_false hnot)]
      exact ih hpos hreturn (fun j _ hj => hfirst (j + 1) (by omega) (by omega)) (by omega)

/-- No request moves the machine into or out of a frame. -/
theorem applyRequest_betweenFrames (s : State) (q : HostRequest) :
    (applyRequest s q).port.betweenFrames = s.port.betweenFrames := by
  cases q with
  | reset =>
    show (machineReset s).port.betweenFrames = _
    rw [machineReset_port]
  | swap image =>
    rw [applyRequest]
    split
    · show (machineReset _).port.betweenFrames = _
      rw [machineReset_port]
    · rfl
  | restore bytes =>
    rw [applyRequest, restoreBytes]
    split <;> rfl
  | snapshot =>
    rw [applyRequest, takeSnapshot]
    split <;> rfl

theorem applyRequests_betweenFrames (qs : List HostRequest) (s : State) :
    (applyRequests qs s).port.betweenFrames = s.port.betweenFrames := by
  induction qs generalizing s with
  | nil => rfl
  | cons q qs ih => exact (ih _).trans (applyRequest_betweenFrames s q)

theorem openFrame_within {s : State} (h : s.port.betweenFrames = false) : openFrame s = s :=
  if_neg (ne_true_of_eq_false h)

theorem openFrame_betweenFrames (s : State) : (openFrame s).port.betweenFrames = false := by
  unfold openFrame
  split
  case isTrue =>
    split
    · rfl
    · exact applyRequests_betweenFrames _ _
  case isFalse h => exact Bool.eq_false_of_not_eq_true h

theorem closeFrame_ready {s : State} (h : s.ppu.frameReady = true) :
    closeFrame s =
      { s with ppu := { s.ppu with frameReady := false }, port := { s.port with betweenFrames := true } } :=
  if_pos h

theorem closeFrame_not_ready {s : State} (h : s.ppu.frameReady = false) : closeFrame s = s :=
  if_neg (ne_true_of_eq_false h)

/-- The frame is ready, or the PPU is at least `n` places into it. -/
def Ppu.Reaches (n : Nat) (p : Ppu) : Prop := p.frameReady = true ∨ (p.InFrame ∧ (n : Int) ≤ p.place)

/-- Each dot goes on by a place at least, or makes the frame ready (51 R336, R337). -/
theorem ppuTick_reaches {n : Nat} {s : State} (h : s.ppu.Reaches n) : (ppuTick s).ppu.Reaches (n + 1) := by
  rcases h with hready | ⟨hin, hplace⟩
  · refine .inl ?_
    have hnext := congrArg (·.2.2.2) (ppuTick_position s)
    refine hnext.trans ?_
    split
    · split
      · rfl
      · exact hready
    · exact hready
  · by_cases hlast : s.ppu.place = 89341
    · exact .inl (congrArg (·.2.2.2) (ppuTick_lastDot hlast hin))
    · obtain ⟨hin', hskip, hcount, -⟩ := ppuTick_withinFrame hin hlast
      refine .inr ⟨hin', ?_⟩
      by_cases hs : s.ppu.Skips
      · rw [hskip hs]
        push_cast
        omega
      · rw [hcount hs]
        push_cast
        omega

theorem reaches_of_position {n : Nat} {p q : Ppu} (h : q.position = p.position) (hp : p.Reaches n) : q.Reaches n := by
  simp only [Ppu.position, Prod.mk.injEq] at h
  obtain ⟨hline, hdot, -, hready⟩ := h
  simpa only [Ppu.Reaches, Ppu.InFrame, Ppu.place, hline, hdot, hready] using hp

/-- A step from a place in a frame ends the frame, or goes on by three places at least. -/
theorem stepNext_reaches {n : Nat} {s : State} (h : (openFrame s).ppu.Reaches n) :
    (stepNext s).port.betweenFrames = true ∨
      ((stepNext s).port.betweenFrames = false ∧ (stepNext s).ppu.InFrame
        ∧ ((n + 3 : Nat) : Int) ≤ (stepNext s).ppu.place) := by
  have hwork := works_cpuTick (threeDots (openFrame s))
  have hreach : (cpuTickNext (threeDots (openFrame s))).ppu.Reaches (n + 3) :=
    reaches_of_position hwork.pos (ppuTick_reaches (ppuTick_reaches (ppuTick_reaches h)))
  have hport : (cpuTickNext (threeDots (openFrame s))).port.betweenFrames = false := by
    rw [hwork.port]
    exact openFrame_betweenFrames s
  unfold stepNext
  cases hready : (cpuTickNext (threeDots (openFrame s))).ppu.frameReady with
  | true =>
    rw [closeFrame_ready hready]
    exact .inl rfl
  | false =>
    rw [closeFrame_not_ready hready]
    exact .inr ⟨hport, hreach.resolve_left (ne_true_of_eq_false hready)⟩

/-- So a frame that is opened ends, after `m` steps if these are enough for the places left. -/
theorem exists_return {m n : Nat} {s : State} (h : (openFrame s).ppu.Reaches n) (hm : 89341 < n + 3 * m) (hpos : 1 ≤ m) :
    ∃ k, 1 ≤ k ∧ k ≤ m ∧ (stepNext^[k] s).port.betweenFrames = true
      ∧ ∀ j, 1 ≤ j → j < k → (stepNext^[j] s).port.betweenFrames = false := by
  induction m generalizing n s with
  | zero => omega
  | succ m ih =>
    rcases stepNext_reaches h with hreturn | ⟨hwithin, hin, hplace⟩
    · exact ⟨1, Nat.le_refl 1, by omega, hreturn, fun j _ _ => by omega⟩
    · have hle := hin.place_le
      have hopen : (openFrame (stepNext s)).ppu.Reaches (n + 3) := by
        rw [openFrame_within hwithin]
        exact .inr ⟨hin, hplace⟩
      obtain ⟨k, hk, hkm, hreturn, hfirst⟩ := ih hopen (by omega) (by omega)
      refine ⟨k + 1, by omega, by omega, hreturn, fun j hj hjk => ?_⟩
      obtain ⟨j, rfl⟩ : ∃ i, j = i + 1 := ⟨j - 1, by omega⟩
      rcases Nat.eq_zero_or_pos j with rfl | hj0
      · exact hwithin
      · exact hfirst j hj0 (by omega)

end Sys2Proof.Machine
end

section
/-! The families of the frame: its length, its calls and its runs (51 R336 to R338, 60 R352, 70 R396, R400). -/

namespace Sys2Proof.Machine

open Sys2Proof.Claims

/-- Settles O53: one dot's position, and the places of a whole frame. -/
theorem frameLength : Obligations.FrameLength := by
  refine ⟨fun s => ?dot, fun s hline hdot => ?frame⟩
  case dot =>
    intro p t skips lineEnds frameEnds
    have hends : s.ppu.endOfLine = true ↔ lineEnds := by
      rw [Ppu.endOfLine_iff, Ppu.Skips, Ppu.rendering_iff]
    have hnext := ppuTick_position s
    by_cases hl : lineEnds
    · rw [if_pos (hends.2 hl)] at hnext
      by_cases h260 : p.scanline = 260
      · have hf : frameEnds := ⟨hl, h260⟩
        rw [if_pos h260] at hnext
        simpa only [if_pos hl, if_pos hf, decide_eq_true hf, Bool.true_or, Ppu.position, Prod.mk.injEq, and_comm, and_assoc,
          and_left_comm] using hnext
      · have hf : ¬ frameEnds := fun hf => h260 hf.2
        rw [if_neg h260] at hnext
        simpa only [if_pos hl, if_neg hf, decide_eq_false hf, Bool.false_or, Ppu.position, Prod.mk.injEq, and_left_comm]
          using hnext
    · have hf : ¬ frameEnds := fun hf => hl hf.1
      rw [if_neg (mt hends.1 hl)] at hnext
      simpa only [if_neg hl, if_neg hf, decide_eq_false hf, Bool.false_or, Ppu.position, Prod.mk.injEq, and_left_comm]
        using hnext
  case frame =>
    intro n t
    have hshort : (s.ppu.frame % 2 = 1 ∧ (s.ppu.mask.showBg = true ∨ s.ppu.mask.showSpr = true)) ↔
        s.ppu.frame % 2 = 1 ∧ s.ppu.rendering = true := and_congr_right' s.ppu.rendering_iff.symm
    have hend := dots_frame hline hdot hshort
    simp only [Ppu.position, Prod.mk.injEq] at hend
    obtain ⟨hline', hdot', hframe, hready⟩ := hend
    refine ⟨hline', hdot', hframe, hready, fun k hk => ?_⟩
    obtain ⟨-, -, hframe, hready, -⟩ := dots_place hline hdot hshort k hk
    exact ⟨hframe, hready⟩

/-- Settles O7: no instruction, tick or step stops, so no run does; a frame call ends since each step goes on by three places
of the frame's 89,342 at least. -/
theorem noStepStops : Obligations.NoStepStops := by
  refine ⟨fun i s => ⟨_, exec_next i s⟩, fun s => ⟨_, cpuTick_eq s⟩, fun s => ⟨_, step_eq s⟩, fun e s => ?run,
    fun n s => runTicks_eq_steps n s, fun s => rfl, fun n s t h => ?frames, fun s hinv _ => ?call⟩
  case run =>
    cases e with
    | frames n => exact runFrames_goes n s
    | ticks n => exact ⟨_, (runTicks_eq_steps n s).trans (steps_eq n s)⟩
  case frames => exact runFrames_succ ((runFrames_one s).symm.trans h) n
  case call =>
    obtain ⟨hsnap, hport, -⟩ := hinv
    obtain ⟨⟨-, hppu, -⟩, -⟩ := openFrame_inv hsnap hport
    obtain ⟨-, -, -, -, ⟨hlow, hhigh⟩, hdot, -⟩ := hppu
    have hopen : (openFrame s).ppu.Reaches 0 := .inr ⟨⟨hlow, hhigh, hdot⟩, by
      have hlow' : -1 ≤ (openFrame s).ppu.scanline := hlow
      rw [Ppu.place]
      omega⟩
    obtain ⟨k, hk, hle, hreturn, hfirst⟩ := exists_return (m := groupsPerFrame) hopen (by decide) (by decide)
    refine ⟨k, stepNext^[k] s, hk, hle, ?_, steps_eq k s, hreturn, fun j u hj hjk hu => ?_⟩
    · exact (runFrames_one s).trans (untilReturn_eq hk hreturn hfirst hle)
    · rw [← Host.Outcome.next.inj ((steps_eq j s).symm.trans hu)]
      exact hfirst j hj hjk

end Sys2Proof.Machine
end

section
/-! SUPPORT. The host's queue is carried along: every operation of a frame commutes with replacing the port (70 R396). -/

namespace Sys2Proof.Machine

/-- The state with another host's side. -/
def State.withPort (s : State) (q : Port) : State := { s with port := q }

-- What is read of a state with its port replaced.

@[simp] theorem withPort_cpu (s : State) (q : Port) : (s.withPort q).cpu = s.cpu := rfl
@[simp] theorem withPort_flag (s : State) (q : Port) (f : Flag) : (s.withPort q).flag f = s.flag f := rfl

-- Every shared operation commutes with replacing it.

@[simp] theorem setA_withPort (s : State) (q : Port) (v : Byte) : (s.withPort q).setA v = (s.setA v).withPort q := rfl
@[simp] theorem setX_withPort (s : State) (q : Port) (v : Byte) : (s.withPort q).setX v = (s.setX v).withPort q := rfl
@[simp] theorem setY_withPort (s : State) (q : Port) (v : Byte) : (s.withPort q).setY v = (s.setY v).withPort q := rfl
@[simp] theorem setS_withPort (s : State) (q : Port) (v : Byte) : (s.withPort q).setS v = (s.setS v).withPort q := rfl
@[simp] theorem setP_withPort (s : State) (q : Port) (v : Byte) : (s.withPort q).setP v = (s.setP v).withPort q := rfl
@[simp] theorem setPc_withPort (s : State) (q : Port) (w : Addr) : (s.withPort q).setPc w = (s.setPc w).withPort q := rfl
@[simp] theorem setFlag_withPort (s : State) (q : Port) (f : Flag) (b : Bool) :
    (s.withPort q).setFlag f b = (s.setFlag f b).withPort q := rfl
@[simp] theorem setZN_withPort (s : State) (q : Port) (v : Byte) : (s.withPort q).setZN v = (s.setZN v).withPort q := rfl
@[simp] theorem setLatent_withPort (s : State) (q : Port) (w : Addr) (m c : Bool) :
    (s.withPort q).setLatent w m c = (s.setLatent w m c).withPort q := rfl

@[simp] theorem charge_withPort (b : Nat) (c : Penalty) (e : Nat) (s : State) (q : Port) :
    charge b c e (s.withPort q) = (charge b c e s).withPort q := by cases c <;> rfl

@[simp] theorem memRead_withPort (s : State) (q : Port) (a : Addr) :
    memRead (s.withPort q) a = ((memRead s a).1, (memRead s a).2.withPort q) := by
  unfold memRead
  split <;> rfl

@[simp] theorem memWrite_withPort (s : State) (q : Port) (a : Addr) (v : Byte) :
    memWrite (s.withPort q) a v = (memWrite s a v).withPort q := by
  unfold memWrite
  split <;> rfl

@[simp] theorem readPair_withPort (s : State) (q : Port) (l h : Addr) :
    readPair (s.withPort q) l h = ((readPair s l h).1, (readPair s l h).2.withPort q) := by simp [readPair]

@[simp] theorem push_withPort (s : State) (q : Port) (v : Byte) : push (s.withPort q) v = (push s v).withPort q := by
  simp [push]

@[simp] theorem pull_withPort (s : State) (q : Port) : pull (s.withPort q) = ((pull s).1, (pull s).2.withPort q) := by
  simp [pull]

@[simp] theorem push16_withPort (s : State) (q : Port) (w : Addr) :
    push16 (s.withPort q) w = (push16 s w).withPort q := by simp [push16]

@[simp] theorem pull16_withPort (s : State) (q : Port) :
    pull16 (s.withPort q) = ((pull16 s).1, (pull16 s).2.withPort q) := by simp [pull16]

@[simp] theorem resolve_withPort (o : Operand) (s : State) (q : Port) :
    resolve o (s.withPort q) = (resolve o s).withPort q := by
  cases o <;> simp [resolve, setIndexed, readZeroPagePointer]

@[simp] theorem load_withPort (o : Operand) (s : State) (q : Port) :
    load o (s.withPort q) = ((load o s).1, (load o s).2.withPort q) := by cases o <;> simp [load]

@[simp] theorem store_withPort (o : Operand) (v : Byte) (s : State) (q : Port) :
    store o v (s.withPort q) = (store o v s).withPort q := by cases o <;> simp [store]

@[simp] theorem intoA_withPort (v : Byte) (s : State) (q : Port) : intoA v (s.withPort q) = (intoA v s).withPort q := rfl
@[simp] theorem adcByte_withPort (m : Byte) (s : State) (q : Port) :
    adcByte m (s.withPort q) = (adcByte m s).withPort q := rfl
@[simp] theorem sbcByte_withPort (m : Byte) (s : State) (q : Port) :
    sbcByte m (s.withPort q) = (sbcByte m s).withPort q := rfl
@[simp] theorem cmpByte_withPort (m : Byte) (s : State) (q : Port) :
    cmpByte m (s.withPort q) = (cmpByte m s).withPort q := rfl

@[simp] theorem enterInterrupt_withPort (s : State) (q : Port) (ret : Addr) (p : Byte) (v : Addr) :
    enterInterrupt (s.withPort q) ret p v = (enterInterrupt s ret p v).withPort q := by simp [enterInterrupt, read16]

@[simp] theorem returnFromInterrupt_withPort (s : State) (q : Port) :
    returnFromInterrupt (s.withPort q) = (returnFromInterrupt s).withPort q := by simp [returnFromInterrupt]

/-- Performing a mnemonic does not depend on the port. -/
@[simp] theorem performOf_withPort (m : Mnemonic) (o : Operand) (s : State) (q : Port) :
    performOf m o (s.withPort q) = (performOf m o s).withPort q := by
  cases m <;> simp only [performOf]
  case lda | ldx | ldy | lax => simp [lda, ldx, ldy, lax]
  case sta | stx | sty | sax => simp [sta, stx, sty, sax]
  case adc | sbc | sbcU | cmp => simp [adc, sbc, sbcU, cmp]
  case cpx | cpy => simp [cpx, cpy]
  case inc | dec | dcp | isc => simp [inc, dec, dcp, isc]
  case and | eor | ora => simp [andA, eor, ora]
  case asl | lsr | rol | ror => simp [asl, lsr, rol, ror]
  case bit => simp [bit]
  case slo | rla | sre | rra => simp [slo, rla, sre, rra]
  case anc | alr => simp [anc, alr]
  case jmp | jsr | rts => simp [jmp, jsr, rts]
  case pha | pla | php | plp => simp [pha, pla, php, plp]
  case brk | rti => simp [brk, rti]
  all_goals rfl

/-- Nor does whether a branch is taken. -/
theorem takenOf_withPort (m : Mnemonic) (s : State) (q : Port) : takenOf m (s.withPort q) = takenOf m s := by
  cases m <;> rfl

@[simp] theorem execNext_withPort (i : Instr) (s : State) (q : Port) :
    execNext i (s.withPort q) = (execNext i s).withPort q := by
  by_cases hb : i.info.penalty = .branch
  · rw [execNext_branch _ hb, execNext_branch _ hb, resolve_withPort, takenOf_withPort]
    split
    · exact charge_withPort _ _ _ ((resolve i.operand s).setPc (resolve i.operand s).cpu.operandAddr) q
    · exact charge_withPort _ _ _ _ q
  · rw [execNext_run _ hb, execNext_run _ hb, resolve_withPort, performOf_withPort, charge_withPort]

@[simp] theorem fetchByte_withPort (s : State) (q : Port) :
    fetchByte (s.withPort q) = ((fetchByte s).1, (fetchByte s).2.withPort q) := by simp [fetchByte, State.advancePc]

@[simp] theorem skipByte_withPort (s : State) (q : Port) :
    skipByte (s.withPort q) = ((skipByte s).1, (skipByte s).2.withPort q) := by
  simp [skipByte, State.advancePc, peek]

@[simp] theorem fetch_withPort (s : State) (q : Port) : fetch (s.withPort q) = ((fetch s).1, (fetch s).2.withPort q) := by
  simp only [fetch, fetchByte_withPort, skipByte_withPort]
  split
  · rfl
  · split <;> rfl
  · rfl

@[simp] theorem dmaCycle_withPort (s : State) (q : Port) : dmaCycle (s.withPort q) = (dmaCycle s).withPort q := by
  simp only [dmaCycle, withPort_cpu, memRead_withPort, memWrite_withPort]
  split
  · split <;> rfl
  · rfl

@[simp] theorem nmiEntry_withPort (s : State) (q : Port) : nmiEntry (s.withPort q) = (nmiEntry s).withPort q := by
  simp only [nmiEntry, enterInterrupt_withPort, withPort_cpu]
  rfl

/-- A CPU tick does not depend on the port. -/
@[simp] theorem cpuTickNext_withPort (s : State) (q : Port) : cpuTickNext (s.withPort q) = (cpuTickNext s).withPort q := by
  simp only [cpuTickNext, withPort_cpu, dmaCycle_withPort, nmiEntry_withPort, runFetched, fetch_withPort, execNext_withPort]
  split
  · rfl
  · split
    · split <;> rfl
    · rfl

/-- The state with another queue of polls. -/
def State.withPolls (s : State) (polls : List HostPoll) : State := s.withPort { s.port with polls := polls }

theorem closeFrame_withPolls (s : State) (polls : List HostPoll) :
    (closeFrame s).port.polls = s.port.polls ∧ closeFrame (s.withPolls polls) = (closeFrame s).withPolls polls := by
  by_cases hready : s.ppu.frameReady = true
  · rw [closeFrame_ready hready, closeFrame_ready (s := s.withPolls polls) hready]
    exact ⟨rfl, rfl⟩
  · have hnot := Bool.eq_false_of_not_eq_true hready
    rw [closeFrame_not_ready hnot, closeFrame_not_ready (s := s.withPolls polls) hnot]
    exact ⟨rfl, rfl⟩

/-- Within a frame a step carries the host's queue along (70 R396, R398). -/
theorem stepNext_withPolls {s : State} (h : s.port.betweenFrames = false) (polls : List HostPoll) :
    (stepNext s).port.polls = s.port.polls ∧ stepNext (s.withPolls polls) = (stepNext s).withPolls polls := by
  have hport : (cpuTickNext (threeDots s)).port = s.port := (works_cpuTick (threeDots s)).port
  have hopen : openFrame (s.withPolls polls) = s.withPolls polls := openFrame_within h
  have hgroup : cpuTickNext (threeDots (s.withPolls polls)) = (cpuTickNext (threeDots s)).withPolls polls := by
    show _ = (cpuTickNext (threeDots s)).withPort { (cpuTickNext (threeDots s)).port with polls := polls }
    rw [hport]
    exact cpuTickNext_withPort (threeDots s) _
  obtain ⟨hpolls, hclose⟩ := closeFrame_withPolls (cpuTickNext (threeDots s)) polls
  rw [stepNext, stepNext, hopen, openFrame_within h, hgroup]
  exact ⟨hpolls.trans (congrArg Port.polls hport), hclose⟩

end Sys2Proof.Machine
end

section
/-! SUPPORT. The iNES image: its header and its body, read off the image by their places (21 R111). -/

namespace Sys2Proof.Machine

/-- The mappers in the order of their numbers (10 R54). -/
theorem mapperOfNumber_eq (n : Nat) : mapperOfNumber n = [Mapper.nrom, .mmc1, .uxrom, .cnrom][n]? := by
  match n with
  | 0 | 1 | 2 | 3 => rfl
  | _ + 4 => rfl

/-- Loading an image that is long enough for a header (21 R111). -/
theorem ofINes_of_header (b0 b1 b2 b3 n m f6 f7 : Byte) {pad : List Byte} (body : List Byte) (hpad : pad.length = 8) :
    Cart.ofINes ([b0, b1, b2, b3, n, m, f6, f7] ++ pad ++ body) =
      if [b0, b1, b2, b3] ≠ [0x4E, 0x45, 0x53, 0x1A] ∨ n = 0 ∨ f6.getLsbD 2 = true then .error .invalidInesHeader
      else (mapperOfNumber (mapperNumberOf f6 f7)).elim (.error (.unsupportedMapper (mapperNumberOf f6 f7))) fun mapper =>
        if body.length < Config.prgBankSize * n.toNat + Config.chrBankSize * m.toNat then .error .io
        else .ok (Cart.ofBody mapper n.toNat m.toNat f6 body) := by
  match pad, hpad with
  | [_, _, _, _, _, _, _, _], _ =>
    refine if_congr Iff.rfl rfl ?_
    cases mapperOfNumber (mapperNumberOf f6 f7) <;> rfl

/-- The bytes of a header, in an image long enough for one. -/
theorem exists_header {image : List Byte} (h : 16 ≤ image.length) :
    ∃ (b0 b1 b2 b3 n m f6 f7 : Byte) (pad body : List Byte),
      pad.length = 8 ∧ image = [b0, b1, b2, b3, n, m, f6, f7] ++ pad ++ body := by
  obtain ⟨b0, b1, b2, b3, n, m, f6, f7, hhead⟩ :
      ∃ b0 b1 b2 b3 n m f6 f7, image.take 8 = [b0, b1, b2, b3, n, m, f6, f7] := by
    have hlen : (image.take 8).length = 8 := by
      rw [List.length_take]
      omega
    match image.take 8, hlen with
    | [b0, b1, b2, b3, n, m, f6, f7], _ => exact ⟨b0, b1, b2, b3, n, m, f6, f7, rfl⟩
  refine ⟨b0, b1, b2, b3, n, m, f6, f7, (image.drop 8).take 8, (image.drop 8).drop 8, ?_, ?_⟩
  · rw [List.length_take, List.length_drop]
    omega
  · rw [← hhead, List.append_assoc, List.take_append_drop, List.take_append_drop]

theorem ofINes_too_short {image : List Byte} (h : image.length < 16) : Cart.ofINes image = .error .io := by
  unfold Cart.ofINes
  split
  · simp only [List.length_cons] at h
    omega
  · rfl

theorem ofINes_bad_magic {image : List Byte} (h : 16 ≤ image.length) (hmagic : image.take 4 ≠ [0x4E, 0x45, 0x53, 0x1A]) :
    Cart.ofINes image = .error .invalidInesHeader := by
  obtain ⟨b0, b1, b2, b3, n, m, f6, f7, pad, body, hpad, rfl⟩ := exists_header h
  rw [ofINes_of_header _ _ _ _ _ _ _ _ _ hpad]
  exact if_pos (.inl hmagic)

/-- A memory made of bytes holds each of them. -/
theorem Memory.getElem?_ofBytes {bytes : List Byte} {i : Nat} (h : i < bytes.length) :
    bytes[i]? = some ((Memory.ofBytes 0 bytes).read i) := by
  rw [Memory.read_ofBytes, if_pos (Nat.zero_le i), Nat.sub_zero, List.getD_eq_getElem?_getD, List.getElem?_eq_getElem h]
  rfl

/-- The ROM bytes of a cartridge are those of the image's body (21 R111). -/
theorem ofBody_reads (mapper : Mapper) (n m : Nat) (f6 : Byte) {body : List Byte}
    (h : Config.prgBankSize * n + Config.chrBankSize * m ≤ body.length) :
    (∀ i < Config.prgBankSize * n, body[i]? = some ((Cart.ofBody mapper n m f6 body).prgRom.read i))
      ∧ ∀ i < Config.chrBankSize * m,
          body[Config.prgBankSize * n + i]? = some ((Cart.ofBody mapper n m f6 body).chr.read i) := by
  refine ⟨fun i hi => ?prg, fun i hi => ?chr⟩
  case prg =>
    rw [← List.getElem?_take_of_lt hi]
    refine Memory.getElem?_ofBytes ?_
    rw [List.length_take]
    omega
  case chr =>
    rw [← List.getElem?_drop, ← List.getElem?_take_of_lt hi]
    refine Memory.getElem?_ofBytes ?_
    rw [List.length_take, List.length_drop]
    omega

/-- No CHR bank in the header stands for one of CHR-RAM, all zeros (10 R51). -/
theorem ofBody_chrRam (mapper : Mapper) (n : Nat) (m f6 : Byte) (body : List Byte) :
    (Cart.ofBody mapper n m.toNat f6 body).chrIsRam = decide (m = 0)
      ∧ (Cart.ofBody mapper n m.toNat f6 body).chrBanks8 = (if m = 0 then 1 else m.toNat)
      ∧ (m = 0 → ∀ i, (Cart.ofBody mapper n m.toNat f6 body).chr.read i = 0) := by
  by_cases hm : m = 0
  · subst hm
    exact ⟨rfl, rfl, fun _ i => rfl⟩
  · have hbanks : m.toNat ≠ 0 := fun h => hm (BitVec.eq_of_toNat_eq h)
    refine ⟨?_, ?_, fun h => absurd h hm⟩
    · exact (beq_false_of_ne hbanks).trans (decide_eq_false hm).symm
    · exact (if_neg hbanks).trans (if_neg hm).symm

end Sys2Proof.Machine
end

section
/-! SUPPORT. The poll that opens a frame: its requests in their order, then its buttons (70 R396, R398). -/

namespace Sys2Proof.Machine

open Sys2Proof.Claims

theorem applyRequests_eq_foldl (qs : List HostRequest) (s : State) : applyRequests qs s = qs.foldl applyRequest s := by
  induction qs generalizing s with
  | nil => rfl
  | cons q qs ih => exact ih (applyRequest s q)

theorem Pads.commit_eq (p : Pads) (q : HostPoll) :
    p.commit q =
      { p with
        committed1 := (q.buttons.getD (p.committed1, p.committed2)).1
        committed2 := (q.buttons.getD (p.committed1, p.committed2)).2
        localButtons := q.localButtons.getD p.localButtons } := by
  unfold Pads.commit
  cases q.buttons <;> rfl

theorem openFrame_poll {s : State} {q : HostPoll} {rest : List HostPoll} (h : s.port.betweenFrames = true)
    (hq : s.port.polls = q :: rest) :
    openFrame s = State.poll { s with port := { s.port with polls := rest, betweenFrames := false } } q := by
  rw [openFrame, if_pos h, hq]

theorem openFrame_no_poll {s : State} (h : s.port.betweenFrames = true) (hq : s.port.polls = []) :
    openFrame s = { s with port := { s.port with betweenFrames := false } } := by
  rw [openFrame, if_pos h, hq]

/-- A snapshot request's answer: the error, or bytes that restore the machine (70 R399). -/
theorem applyRequest_snapshot (s : State) :
    ∃ r, applyRequest s .snapshot = answered s r
      ∧ (r = .snapshotFailed ∨ ∃ bytes, r = .snapshot bytes ∧
        ∀ t : State, (applyRequest t (.restore bytes)).snapshot = s.snapshot) := by
  obtain ⟨r, hr, hfailed | ⟨bytes, hbytes, hdecode⟩⟩ := takeSnapshot_spec s
  · exact ⟨r, hr, .inl hfailed⟩
  · exact ⟨r, hr, .inr ⟨bytes, hbytes, fun t => (restoreBytes_spec t hdecode).2⟩⟩

end Sys2Proof.Machine
end

section
/-! SUPPORT. Power-on and the CPU's reset, each in one equation (70 R380, R381). -/

namespace Sys2Proof.Machine

theorem powerOn_eq (c : Cart) :
    powerOn c =
      { cpu := Cpu.initial (w16 (c.cpuRead 0xFFFD) (c.cpuRead 0xFFFC)), ppu := Ppu.initial, cart := c, wram := []
        pads := Pads.initial, port := Port.initial } := by
  rw [powerOn, read16_reset]

theorem cpuReset_eq (s : State) :
    cpuReset s =
      { s with
        cpu := { s.cpu with
          pc := w16 (s.cart.cpuRead 0xFFFD) (s.cart.cpuRead 0xFFFC), p := withFlag s.cpu.p .i true, s := s.cpu.s - 3
          cyclesUntilNext := 7, nmiPending := false, irqPending := false, dmaRemaining := 0, dmaPage := 0
          dmaBuffer := 0 } } := by
  rw [cpuReset, read16_reset]

end Sys2Proof.Machine
end

section
/-! The families of files 60 and 70: NMI entry, power-on, reset and the host between frames. -/

namespace Sys2Proof.Claims

open Sys2Proof.Machine

/-- Settles O38: the tick's third branch, with NMI entry in one equation. -/
theorem nmiIsTakenAtAnInstructionBoundary : Obligations.NmiIsTakenAtAnInstructionBoundary := by
  intro s hdma hcycles hnmi
  refine ⟨withFlag s.cpu.p .i true, flagsAre_withFlag s.cpu.p .i true, ?_⟩
  rw [cpuTick, if_neg (by omega), if_pos hcycles, if_pos hnmi, nmiEntry_eq, entryStack_eq]
  have hp : pushedPNmi s.cpu.p = (s.cpu.p &&& 0xEF) ||| 0x20 := rfl
  have hcount : (7 : BitVec 16) - 1 = 6 := rfl
  simp only [countDown, countTick, callStack, hp, hcount]

/-- Settles O5: no memory of State.reset lists a cell. -/
theorem resetMeetsTheInvariant : Obligations.ResetMeetsTheInvariant := by
  refine ⟨⟨?cpu, ?ppu, ?cart, ?wram⟩, ?port, rfl⟩
  case cpu => decide
  case ppu => decide
  case cart => decide
  case wram => decide
  case port => exact ⟨fun q hq => absurd hq List.not_mem_nil, fun r hr => absurd hr List.not_mem_nil⟩

/-- Settles O58: the reset vector is read from the cartridge. -/
theorem powerOnState : Obligations.PowerOnState := by
  refine ⟨fun c => ?_, (powerOn_eq Cart.blank).symm⟩
  rw [powerOn_eq]
  exact ⟨rfl, rfl, rfl, rfl, rfl, rfl, rfl, rfl, rfl, rfl, rfl, rfl, rfl, rfl, rfl, rfl⟩

/-- Settles O59: the reset's equation, field by field. -/
theorem machineReset : Obligations.MachineReset := by
  intro s
  rw [Machine.machineReset, cpuReset_eq]
  exact ⟨⟨_, flagsAre_withFlag s.cpu.p .i true, rfl⟩, rfl, rfl, rfl, rfl, rfl⟩

/-- Settles O60: within a frame a step carries the queue along; between frames a poll is its requests and its buttons. -/
theorem hostActsBetweenFrames : Obligations.HostActsBetweenFrames := by
  refine ⟨fun s t q hwithin hstep => ?within, fun s => ⟨openFrame_within, closeFrame_not_ready, closeFrame_ready⟩,
    fun s q rest hbetween hq => ?poll, fun s => openFrame_no_poll, fun image => ⟨ofINes_too_short, ofINes_bad_magic⟩,
    fun n m f6 f7 pad body => ?image, fun s => rfl, fun s image => ?swap, fun s bytes => ?restore, applyRequest_snapshot⟩
  case within =>
    obtain rfl := Host.Outcome.next.inj ((step_eq s).symm.trans hstep)
    obtain ⟨hpolls, hnext⟩ := stepNext_withPolls hwithin q
    exact ⟨hpolls, (step_eq _).trans (congrArg _ hnext)⟩
  case poll =>
    rw [openFrame_poll hbetween hq, State.poll, applyRequests_eq_foldl, Pads.commit_eq]
  case image =>
    intro load number prg chr hpad
    have hload : load = _ := ofINes_of_header 0x4E 0x45 0x53 0x1A n m f6 f7 body hpad
    rw [hload]
    by_cases hheader : n = 0 ∨ f6.getLsbD 2 = true
    · rw [if_pos hheader, if_pos (.inr hheader)]
    rw [if_neg hheader, if_neg (not_or.2 ⟨not_not.2 rfl, hheader⟩), mapperOfNumber_eq]
    by_cases hnumber : 4 ≤ number
    · rw [if_pos hnumber, List.getElem?_eq_none hnumber]
      rfl
    rw [if_neg hnumber, List.getElem?_eq_getElem (Nat.lt_of_not_le hnumber), Option.elim_some]
    by_cases hshort : body.length < prg + chr
    · rw [if_pos hshort]
      exact if_pos hshort
    rw [if_neg hshort]
    obtain ⟨hprg, hchr⟩ := ofBody_reads _ n.toNat m.toNat f6 (Nat.le_of_not_lt hshort)
    obtain ⟨hram, hbanks, hzero⟩ := ofBody_chrRam _ n.toNat m f6 body
    exact ⟨_, if_neg hshort, List.getElem?_eq_getElem _, rfl, hprg, hram, hbanks, hchr, hzero, rfl, fun _ => rfl, rfl, rfl⟩
  case swap =>
    rw [applyRequest]
    cases Cart.ofINes image with
    | ok c => rfl
    | error e => rfl
  case restore =>
    rw [applyRequest, restoreBytes]
    cases Config.snapshotFormat.decode bytes with
    | some x => rfl
    | none => rfl

end Sys2Proof.Claims
end
